-- ==== Sys2Proof/Word.lean ====
section
/-! DEFINITION. The plain types the whole model is written over: a link byte, a raw sample, the four channels and
one value for each channel. -/

namespace Sys2Proof

/-- A byte of a link frame or of the capture memory (R173, R187). -/
abbrev Byte := BitVec 8

/-- A raw sample as it stands in a sample frame: a signed 24-bit value (section 1.1, R1). -/
abbrev Sample := BitVec 24

/-- The channels, numbered 1 to 4 (00_scope.md, Conventions). -/
inductive Chan where
  | ch1 | ch2 | ch3 | ch4
  deriving DecidableEq, Repr

/-- The four channels in ascending order. -/
def Chan.all : List Chan := [.ch1, .ch2, .ch3, .ch4]

/-- The number a message carries for a channel, 1 to 4. -/
def Chan.number : Chan → Nat
  | .ch1 => 1
  | .ch2 => 2
  | .ch3 => 3
  | .ch4 => 4

/-- One value for each of the four channels. -/
structure Quad (α : Type) where
  one : α
  two : α
  three : α
  four : α
  deriving DecidableEq, Repr

/-- The value of channel `c`. -/
def Quad.get {α : Type} (q : Quad α) : Chan → α
  | .ch1 => q.one
  | .ch2 => q.two
  | .ch3 => q.three
  | .ch4 => q.four

/-- `q` with `x` as the value of channel `c`. -/
def Quad.set {α : Type} (q : Quad α) (c : Chan) (x : α) : Quad α :=
  match c with
  | .ch1 => { q with one := x }
  | .ch2 => { q with two := x }
  | .ch3 => { q with three := x }
  | .ch4 => { q with four := x }

/-- The same value for every channel. -/
def Quad.same {α : Type} (x : α) : Quad α := ⟨x, x, x, x⟩

/-- `q` with `f` applied for every channel. -/
def Quad.mapWith {α β : Type} (f : Chan → α → β) (q : Quad α) : Quad β :=
  ⟨f .ch1 q.one, f .ch2 q.two, f .ch3 q.three, f .ch4 q.four⟩

/-- The four values in channel order. -/
def Quad.toList {α : Type} (q : Quad α) : List α := [q.one, q.two, q.three, q.four]

end Sys2Proof
end

