-- ==== Sys2Proof/Syntax.lean ====
section
/-! DEFINITION. The commands of the block: one constructor for each row of spec/opcode_table.json, with the row's
operands. A link command carries its tag and its body as the frame carried them (R173, R183). -/

namespace Sys2Proof

/-- The steps of spec/opcode_table.json, each whole and indivisible (95_what_each_step_holds.md). -/
inductive Instr where
  /-- POWER_ON_RESET. R7, R172: RESETN is released with these levels on the straps RATE1 and RATE0. -/
  | powerOnReset (rate1 : Bool) (rate0 : Bool)
  /-- SAMPLE_FRAME. R1: a frame arrives with the samples of channels 1 to 4, the level on ACT, and `gapMicros` microseconds of crystal time after the frame before it. -/
  | sampleFrame (x1 : Sample) (x2 : Sample) (x3 : Sample) (x4 : Sample) (act : Bool) (gapMicros : Nat)
  /-- BLOCK_END. R1: the block end of a completed block takes place. -/
  | blockEnd
  /-- WINDOW_END. R13: an observation window of channel `c` ends. -/
  | windowEnd (c : Chan)
  /-- EPISODE_RELEASED. R109: the episode of channel `c` has been released. -/
  | episodeReleased (c : Chan)
  /-- TOGGLE_POINT. R120: the flash counter has reached the half-period. -/
  | togglePoint
  /-- CAPTURE_TAIL_END. R135: the tail of channel `c`'s recording ends. -/
  | captureTailEnd (c : Chan)
  /-- CAPTURE_FULL. R135: channel `c`'s recording reaches 10,000 blocks. -/
  | captureFull (c : Chan)
  /-- CHECK_SETTLED. R151: the running check has settled. -/
  | checkSettled
  /-- CHECK_RESULT. R152: the running check reaches its measure time. -/
  | checkResult
  /-- LIVE_POINT. R166: the live counter reaches the live period. -/
  | livePoint
  /-- STALL_TIMEOUT. R4: 4 ms of crystal time have passed with no frame. -/
  | stallTimeout
  /-- FRAME_RECEIVED. R175: the check byte arrives that completes the link frame in progress. -/
  | frameReceived (check : Byte)
  /-- RECEIVE_TIMEOUT. R174: more than 20 ms have passed inside a link frame with no byte. -/
  | receiveTimeout
  /-- UNKNOWN_KIND. R177: a command whose kind is none of 01h to 1Dh begins execution. -/
  | unknownKind (kind : Byte) (tag : Byte) (body : List Byte)
  /-- IDENT. R178: IDENT (kind 01h) begins execution with this tag and body. -/
  | ident (tag : Byte) (body : List Byte)
  /-- STATUS. R179: STATUS (kind 02h) begins execution with this tag and body. -/
  | status (tag : Byte) (body : List Byte)
  /-- SOFT_RESET. R180: SOFT_RESET (kind 03h) begins execution with this tag and body. -/
  | softReset (tag : Byte) (body : List Byte)
  /-- SET_TIME. R61: SET_TIME (kind 04h) begins execution with this tag and body. -/
  | setTime (tag : Byte) (body : List Byte)
  /-- HOLD. R87: HOLD (kind 05h) begins execution with this tag and body. -/
  | hold (tag : Byte) (body : List Byte)
  /-- RESUME. R88: RESUME (kind 06h) begins execution with this tag and body. -/
  | resume (tag : Byte) (body : List Byte)
  /-- EDIT_CHANNEL. R76: EDIT_CHANNEL (kind 07h) begins execution with this tag and body. -/
  | editChannel (tag : Byte) (body : List Byte)
  /-- EDIT_RANGE. R18: EDIT_RANGE (kind 08h) begins execution with this tag and body. -/
  | editRange (tag : Byte) (body : List Byte)
  /-- EDIT_GAINCODES. R19: EDIT_GAINCODES (kind 09h) begins execution with this tag and body. -/
  | editGainCodes (tag : Byte) (body : List Byte)
  /-- EDIT_WEIGHTING. R28: EDIT_WEIGHTING (kind 0Ah) begins execution with this tag and body. -/
  | editWeighting (tag : Byte) (body : List Byte)
  /-- EDIT_LIMITS. R65: EDIT_LIMITS (kind 0Bh) begins execution with this tag and body. -/
  | editLimits (tag : Byte) (body : List Byte)
  /-- EDIT_INTERVAL. R77: EDIT_INTERVAL (kind 0Ch) begins execution with this tag and body. -/
  | editInterval (tag : Byte) (body : List Byte)
  /-- EDIT_ACTIVITY. R78: EDIT_ACTIVITY (kind 0Dh) begins execution with this tag and body. -/
  | editActivity (tag : Byte) (body : List Byte)
  /-- COMMIT. R79: COMMIT (kind 0Eh) begins execution with this tag and body. -/
  | commit (tag : Byte) (body : List Byte)
  /-- DISCARD. R80: DISCARD (kind 0Fh) begins execution with this tag and body. -/
  | discard (tag : Byte) (body : List Byte)
  /-- READ_SETTINGS. R82: READ_SETTINGS (kind 10h) begins execution with this tag and body. -/
  | readSettings (tag : Byte) (body : List Byte)
  /-- SET_ALERT. R122: SET_ALERT (kind 11h) begins execution with this tag and body. -/
  | setAlert (tag : Byte) (body : List Byte)
  /-- SET_CAPTURE. R140: SET_CAPTURE (kind 12h) begins execution with this tag and body. -/
  | setCapture (tag : Byte) (body : List Byte)
  /-- SET_REPORTING. R170: SET_REPORTING (kind 13h) begins execution with this tag and body. -/
  | setReporting (tag : Byte) (body : List Byte)
  /-- SNAPSHOT. R168: SNAPSHOT (kind 14h) begins execution with this tag and body. -/
  | snapshot (tag : Byte) (body : List Byte)
  /-- READ_RECORD. R99: READ_RECORD (kind 15h) begins execution with this tag and body. -/
  | readRecord (tag : Byte) (body : List Byte)
  /-- READ_EVENT. R165: READ_EVENT (kind 16h) begins execution with this tag and body. -/
  | readEvent (tag : Byte) (body : List Byte)
  /-- LIST_CAPTURES. R143: LIST_CAPTURES (kind 17h) begins execution with this tag and body. -/
  | listCaptures (tag : Byte) (body : List Byte)
  /-- READ_CAPTURE. R141: READ_CAPTURE (kind 18h) begins execution with this tag and body. -/
  | readCapture (tag : Byte) (body : List Byte)
  /-- RELEASE_CAPTURE. R142: RELEASE_CAPTURE (kind 19h) begins execution with this tag and body. -/
  | releaseCapture (tag : Byte) (body : List Byte)
  /-- LEND_MEMORY. R144: LEND_MEMORY (kind 1Ah) begins execution with this tag and body. -/
  | lendMemory (tag : Byte) (body : List Byte)
  /-- RECLAIM_MEMORY. R145: RECLAIM_MEMORY (kind 1Bh) begins execution with this tag and body. -/
  | reclaimMemory (tag : Byte) (body : List Byte)
  /-- START_CHECK. R148: START_CHECK (kind 1Ch) begins execution with this tag and body. -/
  | startCheck (tag : Byte) (body : List Byte)
  /-- ABORT_CHECK. R156: ABORT_CHECK (kind 1Dh) begins execution with this tag and body. -/
  | abortCheck (tag : Byte) (body : List Byte)
  /-- MEMORY_WRITE_DONE. R138: the write in flight on the memory port completes. -/
  | memoryWriteDone
  /-- MEMORY_READ_DONE. R141: the read in flight on the memory port completes. -/
  | memoryReadDone
  /-- TRANSMIT_COMPLETE. R181: the stop bit of the check byte of the frame being sent has been sent. -/
  | transmitComplete
  /-- BYTE_RECEIVED. R174: a character arrives on RXD. -/
  | byteReceived (b : Byte)
  deriving DecidableEq, Repr

end Sys2Proof
end

