-- ==== Sys2Proof/Decode.lean ====
section
/-! DEFINITION. The table's own encodings. spec/opcode_table.json gives no row any bits (98_reader.md counts no row
with fields), so no word spells a command; the byte encoding of link commands is the receiver's
(Sys2Proof/Machine/Link.lean). -/

namespace Sys2Proof

/-- The command that a table word spells: none, since no row of the table has bits (log entry 19). -/
def decodeTableWord (_nbits _w : Nat) : Option Instr := none

end Sys2Proof
end

