-- ==== Sys2Proof/Config.lean ====
section
/-! DEFINITION. What the manual fixes as numbers for every part, and the free values: constants with no body, of
which no proof can see a value. -/

namespace Sys2Proof.Config

/-- OVL_LEVEL: the overload level (R2). -/
def overloadLevel : Nat := 8380000
/-- Sample frames in a block (R1). -/
def framesPerBlock : Nat := 48
/-- Updates after which F is settled (R34). -/
def fSettledAt : Nat := 1000
/-- Updates after which S is settled (R34). -/
def sSettledAt : Nat := 5000
/-- Interval records the record FIFO holds (R98). -/
def fifoSize : Nat := 128
/-- Event notices the event queue holds (R163). -/
def eventQueueSize : Nat := 32
/-- Replies the reply queue holds (R161). -/
def replyQueueSize : Nat := 4
/-- Commands the command queue holds (R176). -/
def commandQueueSize : Nat := 4
/-- Entries of the write buffer (R137). -/
def writeBufferSize : Nat := 4
/-- Positions of a capture region, and blocks of the longest capture (R126, R135). -/
def regionPositions : Nat := 10000
/-- Bytes of a capture block (R125). -/
def captureBlockBytes : Nat := 100
/-- Blocks a check settles for (R151). -/
def settlingBlocks : Nat := 1000
/-- Block ends between two PEAK notices of a channel (R117). -/
def peakHoldOff : Nat := 1000
/-- The greatest length of a link frame's body (R173). -/
def maxBody : Nat := 1000

/-- FREE VALUE (log entry 5). The answer to the `k`-th question "which is taken first" that the manual leaves open
(R37, R103, R132, R137, R157, R162, R169): the candidate number `pick k`, counted round. -/
opaque pick : Nat → Nat

/-- FREE VALUE (log entry 10). What the capture memory may hold when it is reclaimed from the outside reader: any
list of bytes by address, for the `k`-th free choice and the contents at the lend (R145). -/
opaque lentMemory : Nat → List Host.Cell → List Host.Cell

/-- FREE VALUE (log entry 11). The level of an energy above 0 gathered over no samples, for which R40 states no
value and which no run reaches. -/
opaque levelOverNoSamples : Nat → Int

/-- FREE VALUE (log entry 26). The `k`-th byte of a field for which chapter 10 gives a length and no value: the bytes of
the STATUS item list after the items (R179), and the interval number of a HOLD_ENTERED with none present (R185). -/
opaque unstatedByte : Nat → Byte

end Sys2Proof.Config
end

