-- ==== Sys2Proof/Machine/State.lean ====
section
/-! DEFINITION. The state of the block as plain data: everything the chapters give each unit, the queue of commands
that are waiting, and the state right after power-on reset. Ranges are stated by the rules each field cites; numbers
are integers, as the chapters compute with them (R22, R26, R33, R40), and are narrowed only where a message carries
them (R182). -/

namespace Sys2Proof.Machine

/-! ### Site time -/

/-- A reading of the site clock without the frame in block: a time stamp (R60, R182). -/
structure Stamp where
  year : Nat
  month : Nat
  day : Nat
  second : Nat
  block : Nat
  deriving DecidableEq, Repr

/-- The result of a schedule lookup: NO_ENTRY or an entry index 0 to 15 (R66). -/
inductive Lookup where
  | noEntry
  | entry (index : Nat)
  deriving DecidableEq, Repr

/-- The site clock (R55). -/
structure Clock where
  isSet : Bool
  now : Stamp
  pendingLoad : Option Stamp
  entryInForce : Option Lookup
  deriving DecidableEq, Repr

/-- What the clock hands at a block end: a block-end report or, with `load`, a load report (R56, R63). `ended` is the
instant at which the block ended, `reading` the new reading, `named` the block in second that named the block. -/
structure ClockReport where
  ended : Stamp
  reading : Stamp
  load : Bool
  secondChanged : Bool
  minuteChanged : Bool
  dayChanged : Bool
  scheduleChange : Option Lookup
  named : Nat
  deriving DecidableEq, Repr

/-! ### Configuration store (R74) -/

/-- The range settings of a channel (section 1.4). -/
structure RangeSettings where
  gMin : Nat
  gMax : Nat
  tImm : Nat
  tHi : Nat
  tLo : Nat
  window : Nat
  holdOff : Nat
  settle : Nat
  deriving DecidableEq, Repr

/-- The gain-code table of a channel: one code for each gain step (R9). -/
structure GainCodes where
  step0 : Nat
  step1 : Nat
  step2 : Nat
  step3 : Nat
  step4 : Nat
  deriving DecidableEq, Repr

/-- The coefficients of one section, each a multiple of 2^-28 (R25). -/
structure Coeffs where
  b0 : Int
  b1 : Int
  b2 : Int
  a1 : Int
  a2 : Int
  deriving DecidableEq, Repr

/-- A weighting set: three sections (R25). -/
structure WeightingSet where
  first : Coeffs
  second : Coeffs
  third : Coeffs
  deriving DecidableEq, Repr

/-- The twelve settings of a channel (R76). -/
structure ChannelSettings where
  enable : Bool
  k : Int
  mainSet : Nat
  peakSet : Nat
  limitOffset : Int
  h0 : Nat
  n1 : Nat
  n2 : Nat
  n3 : Nat
  warnPercent : Nat
  hysteresis : Nat
  releaseTime : Nat
  deriving DecidableEq, Repr

/-- A schedule entry (R64). Bit 0 of `days` is Monday; a limit that is `none` is NONE. -/
structure ScheduleEntry where
  valid : Bool
  days : BitVec 7
  startMinute : Nat
  endMinute : Nat
  leq : Option Nat
  lmax : Option Nat
  peak : Option Nat
  deriving DecidableEq, Repr

/-- The activity mode (R78). -/
inductive ActivityMode where
  | off | gate | strike
  deriving DecidableEq, Repr

/-- One copy of the configuration store (R74). -/
structure Settings where
  base : Nat
  factor : Nat
  mode : ActivityMode
  polarityHigh : Bool
  guardLength : Nat
  chan : Quad ChannelSettings
  range : Quad RangeSettings
  codes : Quad GainCodes
  w1 : WeightingSet
  w2 : WeightingSet
  w3 : WeightingSet
  schedule : Vector ScheduleEntry 16
  deriving DecidableEq, Repr

/-- The configuration store: both copies and commit pending (R74). -/
structure Store where
  staged : Settings
  active : Settings
  commitPending : Bool
  deriving DecidableEq, Repr

/-! ### Sample port, range controllers, weighting and detector units -/

/-- The sample port (R1, R4), with the level of ACT sampled for the block in progress (R91). -/
structure Port where
  stalled : Bool
  frameCounter : Nat
  actSample : Bool
  deriving DecidableEq, Repr

/-- A range controller (R8), its gain-code lines (R9) and the block summary so far (R3). -/
structure RangeCtl where
  gain : Nat
  holdOff : Nat
  windowCounter : Nat
  windowPeak : Nat
  settling : Nat
  frozen : Bool
  lines : Nat
  overload : Bool
  settlingSamples : Nat
  gainChanges : Nat
  deriving DecidableEq, Repr

/-- The state of one filter section: previous inputs and outputs (R26). -/
structure SectionState where
  x1 : Int
  x2 : Int
  y1 : Int
  y2 : Int
  deriving DecidableEq, Repr

/-- The state of one filter path (R27). -/
structure FilterPath where
  first : SectionState
  second : SectionState
  third : SectionState
  deriving DecidableEq, Repr

/-- A weighting and detector unit (R21), with the raw samples of the block so far in frame order (R37). -/
structure WeightUnit where
  lastValid : Int
  main : FilterPath
  peak : FilterPath
  energy : Nat
  blockPeak : Nat
  saturations : Nat
  checkEnergy : Nat
  raw : List Int
  yF : Nat
  yS : Nat
  fCount : Nat
  sCount : Nat
  deriving DecidableEq, Repr

/-- The block results a unit hands at a block end, with the range controller's summary (R37, R3). -/
structure BlockResults where
  energy : Nat
  peak : Nat
  yF : Nat
  yS : Nat
  fSettled : Bool
  sSettled : Bool
  saturations : Nat
  checkEnergy : Nat
  raw : List Int
  overload : Bool
  settlingSamples : Nat
  gainChanges : Nat
  gain : Nat
  deriving DecidableEq, Repr

/-- The class of a channel's block (R90, R91). -/
inductive BlockClass where
  | excluded | active | quiet | transition
  deriving DecidableEq, Repr

/-- What has been handed at the most recent block end: block results (R37), the clock's report (R56, R63), the
classes (R73, step 1) and whether the block was a strike (R92). -/
structure Handed where
  results : Quad BlockResults
  report : ClockReport
  classes : Quad BlockClass
  strike : Bool
  deriving DecidableEq, Repr

/-! ### Interval accumulator -/

/-- The measurement state (R72). -/
inductive MeasState where
  | untimed | measuring | held
  deriving DecidableEq, Repr

/-- The effective limits of a channel (R67). -/
structure Limits where
  leq : Option Int
  lmax : Option Int
  peak : Option Int
  deriving DecidableEq, Repr

/-- The accumulators of one channel enabled in the open interval (R93, R94, R95). -/
structure ChannelAcc where
  limits : Limits
  sum : Nat
  sumActive : Nat
  sumQuiet : Nat
  active : Nat
  quiet : Nat
  transition : Nat
  excluded : Nat
  maxF : Option Nat
  minF : Option Nat
  maxS : Option Nat
  maxPeak : Option Nat
  fSettling : Bool
  bins : Vector Nat 240
  underflow : Nat
  overflow : Nat
  samplingCounter : Nat
  overloadBlocks : Nat
  settlingSamples : Nat
  saturations : Nat
  gainChanges : Nat
  histSamples : Nat
  finalGain : Nat
  deriving DecidableEq, Repr

/-- The open interval (R72, R85). A channel's accumulators are present when it is enabled in the interval. -/
structure Interval where
  number : Nat
  openTime : Stamp
  entry : Lookup
  nNom : Nat
  gap : Bool
  configApplied : Bool
  clockSet : Bool
  strikes : Nat
  accs : Quad (Option ChannelAcc)
  deriving DecidableEq, Repr

/-- Why an interval closed (R83). -/
inductive CloseCause where
  | aligned | midnight | schedule | clockSet | resumeStart
  deriving DecidableEq, Repr

/-- An interval record (R96, R97, R186). -/
structure IntervalRecord where
  number : Nat
  chan : Chan
  openTime : Stamp
  closeTime : Stamp
  cause : CloseCause
  entry : Lookup
  limits : Limits
  n : Nat
  active : Nat
  quiet : Nat
  transition : Nat
  excluded : Nat
  leq : Int
  leqActive : Int
  leqQuiet : Int
  site : Int
  lfMax : Int
  lfMin : Int
  lsMax : Int
  lpk : Int
  p1 : Int
  p2 : Int
  p3 : Int
  n1 : Nat
  n2 : Nat
  n3 : Nat
  overloadBlocks : Nat
  settlingSamples : Nat
  saturations : Nat
  gainChanges : Nat
  peaksOver : Nat
  episodesOpened : Nat
  histSamples : Nat
  strikes : Nat
  budgetUsed : Nat
  finalGain : Nat
  flags : BitVec 16
  deriving DecidableEq, Repr

/-- The interval accumulator besides the store, the open interval and the record FIFO (R72). `checkInBlock` marks the
channels on which a check ran at some moment of the block in progress (R90). -/
structure Accumulator where
  phase : MeasState
  holdPending : Bool
  openingPending : Bool
  restartPending : Bool
  nextNumber : Nat
  carriedConfig : Bool
  carriedClock : Bool
  carriedGain : Quad Nat
  prevAct : Option Bool
  guardRemaining : Nat
  checkInBlock : Quad Bool
  deriving DecidableEq, Repr

/-! ### Exceedance monitor (R101) -/

/-- The budget of a channel and its warning threshold, with the effective Leq limit (R102). -/
structure BudgetThreshold where
  limit : Int
  b : Nat
  warn : Nat
  deriving DecidableEq, Repr

/-- The episode threshold Y and the release threshold Yr, with the effective Lmax limit (R102). -/
structure EpisodeThreshold where
  limit : Int
  y : Nat
  yr : Nat
  deriving DecidableEq, Repr

/-- The peak threshold A, with the effective peak limit (R102). -/
structure PeakThreshold where
  limit : Int
  a : Nat
  deriving DecidableEq, Repr

/-- The episode state (R101). -/
inductive EpisodePhase where
  | idle | opened | releasing
  deriving DecidableEq, Repr

/-- The episode in progress (R108, R111). -/
structure Episode where
  number : Nat
  start : Stamp
  duration : Nat
  q : Nat
  maxLevel : Int
  maxTime : Stamp
  captureId : Option Nat
  deriving DecidableEq, Repr

/-- Why an episode closed (R111). -/
inductive CloseReason where
  | released | limitRemoved | stalled | check | reset
  deriving DecidableEq, Repr

/-- A complete episode record (R111). -/
structure EpisodeRecord where
  number : Nat
  chan : Chan
  start : Stamp
  stop : Stamp
  duration : Nat
  maxLevel : Int
  maxTime : Stamp
  sel : Int
  captureId : Option Nat
  reason : CloseReason
  deriving DecidableEq, Repr

/-- The monitor's state for one channel (R101). -/
structure MonitorChan where
  budget : Option BudgetThreshold
  warned : Bool
  spent : Bool
  lmax : Option EpisodeThreshold
  releaseTime : Nat
  peak : Option PeakThreshold
  peaksOver : Nat
  episodesOpened : Nat
  phase : EpisodePhase
  releaseCounter : Nat
  episode : Option Episode
  peakHoldOff : Nat
  peaksSuppressed : Nat
  deriving DecidableEq, Repr

/-- The alert mode (R122). -/
inductive AlertMode where
  | off | steady | flash
  deriving DecidableEq, Repr

/-- The alert line (R101, R120 to R123). -/
structure AlertLine where
  mode : AlertMode
  halfPeriod : Nat
  flashCounter : Nat
  high : Bool
  pendingSetting : Option (AlertMode × Nat)
  deriving DecidableEq, Repr

/-! ### Capture controller (R127) -/

/-- The descriptor of a RECORDING or STORED capture (R136); its region is where it stands. -/
structure Descriptor where
  id : Nat
  chan : Chan
  firstEpisode : Nat
  episodeCount : Nat
  trigger : Stamp
  pre : Nat
  length : Nat
  start : Nat
  truncated : Bool
  dropout : Bool
  lentGap : Bool
  age : Nat
  deriving DecidableEq, Repr

/-- The role of a region. A recording carries its descriptor, whose channel it records, and its tail remaining. -/
inductive Role where
  | ring (c : Chan)
  | recording (d : Descriptor) (tail : Option Nat)
  | stored (d : Descriptor)
  | free
  deriving DecidableEq, Repr

/-- A channel's ring in its region (R129). -/
structure Ring where
  head : Nat
  fill : Nat
  dropAge : Option Nat
  deriving DecidableEq, Repr

/-- An entry of the write buffer: a capture block with its region and position (R137). -/
structure BufferEntry where
  region : Fin 16
  position : Nat
  bytes : List Byte
  deriving DecidableEq, Repr

/-- An operation of the memory port (R138). -/
inductive MemoryOp where
  | write (e : BufferEntry)
  | read (region : Fin 16) (position : Nat)
  deriving DecidableEq, Repr

/-- The READ_CAPTURE in execution, with the blocks read so far (R141). -/
structure ReadJob where
  tag : Byte
  id : Nat
  region : Fin 16
  start : Nat
  first : Nat
  count : Nat
  got : List (List Byte)
  deriving DecidableEq, Repr

/-- The lend state (R127). -/
inductive LendState where
  | owned | lending | lent
  deriving DecidableEq, Repr

/-- The capture controller (R127). `closeBlock` marks a channel whose episode has closed at the block end being taken
and whose close block has not yet been handled (R134). -/
structure Capture where
  regions : Vector Role 16
  rings : Quad Ring
  nextId : Nat
  protect : Bool
  preLength : Nat
  tailLength : Nat
  buffer : List BufferEntry
  inFlight : Option MemoryOp
  lend : LendState
  job : Option ReadJob
  closeBlock : Quad Bool
  deriving DecidableEq, Repr

/-! ### Check engine (R147) -/

/-- The check state (R147). -/
inductive CheckPhase where
  | idle | settling | collecting
  deriving DecidableEq, Repr

/-- The source of a check (R148). -/
inductive CheckSource where
  | calibrator | internal
  deriving DecidableEq, Repr

/-- The parameters of a check as taken by START_CHECK (R148). -/
structure CheckParams where
  chan : Chan
  source : CheckSource
  expected : Int
  tolerance : Nat
  measureTime : Nat
  adjust : Bool
  amplitude : Nat
  gain : Nat
  deriving DecidableEq, Repr

/-- How a check ended (R154). -/
inductive CheckEnd where
  | pass | fail | overload | stalled | aborted | configChanged | reset
  deriving DecidableEq, Repr

/-- The outcome of the staged calibration adjustment (R153). -/
inductive Adjustment where
  | notAsked | notCalibrator | noSignal | outOfWindow | commitPending | kRange | made | notCompleted
  deriving DecidableEq, Repr

/-- The result record of a check (R154). A deviation that is `none` is NOSIG. -/
structure CheckRecord where
  chan : Chan
  source : CheckSource
  result : CheckEnd
  measured : Int
  expected : Int
  deviation : Option Int
  tolerance : Nat
  measureTime : Nat
  blocksMeasured : Nat
  adjustment : Adjustment
  stagedK : Int
  deriving DecidableEq, Repr

/-- The check engine (R147). -/
structure CheckEngine where
  phase : CheckPhase
  params : Option CheckParams
  counter : Nat
  sum : Nat
  last : Option CheckRecord
  deriving DecidableEq, Repr

/-! ### Report queue (R160) -/

/-- Why an opening got no capture (R132). -/
inductive MissReason where
  | isProtected | lent
  deriving DecidableEq, Repr

/-- The kind of an event with its body (R164). -/
inductive EventBody where
  | episodeOpen (number : Nat) (fLevel limit : Int)
  | episodeClosed (r : EpisodeRecord)
  | peak (level limit : Int) (suppressed : Nat)
  | budgetWarn (used : Nat) (limit : Int) (interval : Nat)
  | budgetSpent (used : Nat) (limit : Int) (interval : Nat)
  | inputStalled (frame : Nat)
  | inputResumed (millis : Nat)
  | captureStored (region : Nat) (d : Descriptor)
  | captureDiscarded (id : Nat) (chan : Chan) (firstEpisode episodeCount taking : Nat)
  | captureMissed (episode : Nat) (reason : MissReason)
  | checkDone (r : CheckRecord)
  | memoryLent
  | configApplied (atBoundary : Bool)
  | holdEntered (interval : Option Nat)
  | recordsLost (interval : Nat) (chan : Chan) (count : Nat)
  deriving DecidableEq, Repr

/-- An event notice in the event queue (R162); its lost-before field is filled as it leaves (R163). -/
structure Notice where
  chan : Option Chan
  stamp : Stamp
  body : EventBody
  deriving DecidableEq, Repr

/-- The items of a live report (R167). -/
inductive LiveItem where
  | fLevel | sLevel | leqSoFar | peakSoFar | gainStep | budgetUsed | episodeState | siteSoFar
  deriving DecidableEq, Repr

/-- A live report (R167): each channel's item values in list order. -/
structure LiveReport where
  stamp : Stamp
  overwritten : Nat
  items : List LiveItem
  values : Quad (List Int)
  deriving DecidableEq, Repr

/-- An outgoing message: its kind, tag and body bytes (R169, R173). -/
structure Message where
  kind : Byte
  tag : Byte
  body : List Byte
  deriving DecidableEq, Repr

/-- The report queue (R160). Bit k − 1 of `kindMask` is event kind k, bit c − 1 of `chanMask` channel c (R182). -/
structure ReportQueue where
  replies : List Message
  reserved : Nat
  events : List Notice
  lostSinceSent : Nat
  eventsLost : Nat
  liveSlot : Option LiveReport
  liveOverwritten : Nat
  liveCounter : Nat
  eventOn : Bool
  recordOn : Bool
  liveOn : Bool
  kindMask : BitVec 15
  chanMask : BitVec 4
  livePeriod : Nat
  items : List LiveItem
  sending : Option Message
  deriving DecidableEq, Repr

/-- The accumulators of a channel as the most recent block end left them, as far as live items read them (R167). -/
structure ImageAcc where
  sum : Nat
  n : Nat
  maxPeak : Option Nat
  sumActive : Nat
  nActive : Nat
  sumQuiet : Nat
  nQuiet : Nat
  deriving DecidableEq, Repr

/-- What the live items read of one channel (R167). -/
structure ImageChan where
  yF : Nat
  yS : Nat
  gain : Nat
  acc : Option ImageAcc
  budgetUsed : Nat
  phase : EpisodePhase
  deriving DecidableEq, Repr

/-- The state after the most recent block end, as live reports and snapshots read it (R167, R168). -/
structure LiveImage where
  stamp : Stamp
  mode : ActivityMode
  chans : Quad ImageChan
  deriving DecidableEq, Repr

/-! ### Command link -/

/-- The receiver with its frame in progress: length, kind, tag, body so far and running sum modulo 256 (R174). -/
inductive Receiver where
  | hunt
  | length (low : Option Byte) (sum : Byte)
  | header (len : Nat) (kind : Option Byte) (sum : Byte)
  | body (len : Nat) (kind tag : Byte) (got : List Byte) (sum : Byte)
  | check (kind tag : Byte) (body : List Byte) (sum : Byte)
  deriving DecidableEq, Repr

/-- A command in the command queue (R175). -/
structure Command where
  kind : Byte
  tag : Byte
  body : List Byte
  deriving DecidableEq, Repr

/-- The command link (R172, R174, R175, R176). -/
structure Link where
  rate : Nat
  receiver : Receiver
  timeouts : Nat
  checkErrors : Nat
  overruns : Nat
  queue : List Command
  deriving DecidableEq, Repr

/-- One unit's step at a block end (R12, R37, R56, R73, R103, R128, R151, R121, R166). -/
inductive Task where
  | range (c : Chan)
  | weigh (c : Chan)
  | clock
  | classify
  | engine
  | accumulate
  | peak (c : Chan)
  | budget (c : Chan)
  | episode (c : Chan)
  | capture (c : Chan)
  | boundary
  | alert
  | live
  deriving DecidableEq, Repr

/-- The state of the block. `pending`, `blockWork` and `choice` are the model's own: the commands still to be taken,
the units' steps of a completed block still to be taken (none when no block end is due), and how many free choices
have been made. -/
structure State where
  port : Port
  range : Quad RangeCtl
  unit : Quad WeightUnit
  clock : Clock
  store : Store
  acc : Accumulator
  interval : Option Interval
  fifo : List IntervalRecord
  recordsLost : Nat
  monitor : Quad MonitorChan
  nextEpisode : Nat
  alert : AlertLine
  capture : Capture
  memory : List Host.Cell
  check : CheckEngine
  report : ReportQueue
  link : Link
  handed : Handed
  image : LiveImage
  blockWork : Option (List Task)
  choice : Nat
  pending : List Instr
  deriving DecidableEq, Repr

/-- Why the model stops with a fault. -/
inductive Fault where
  /-- Raised by MEMORY_WRITE_DONE and MEMORY_READ_DONE when the operation in flight lies at a position above 9,999 of
  its region, which R126 says does not exist. No run reaches it. Safe: the model stops. -/
  | outsideCaptureMemory (position : Nat)
  deriving DecidableEq, Repr

/-- Why the model refuses a command. -/
inductive Refusal where
  /-- Raised by `exec` alone, for a command that has no meaning yet, by its mnemonic. Safe: the model stops. -/
  | notModelled (mnemonic : String)
  deriving DecidableEq, Repr

/-! ### Power-on values -/

/-- 2000-01-01, second 0, block 0 (R55). -/
def Stamp.powerOn : Stamp := ⟨2000, 1, 1, 0, 0⟩

/-- The coefficients of a flat section: b0 = 2^28, the rest 0 (R25). -/
def Coeffs.flat : Coeffs := ⟨2 ^ 28, 0, 0, 0, 0⟩

/-- W0, and the power-on values of W1 to W3 (R25). -/
def WeightingSet.flat : WeightingSet := ⟨.flat, .flat, .flat⟩

/-- Every setting at its default (R20, R25, R64, R74, R76, R77, R78). -/
def Settings.default : Settings where
  base := 60
  factor := 15
  mode := .off
  polarityHigh := true
  guardLength := 2000
  chan := .same ⟨true, 0, 0, 0, 0, 2000, 10, 50, 90, 80, 300, 1000⟩
  range := .same ⟨0, 4, 7800000, 6000000, 1400000, 500, 50, 24⟩
  codes := .same ⟨0, 1, 2, 3, 4⟩
  w1 := .flat
  w2 := .flat
  w3 := .flat
  schedule := Vector.replicate 16 ⟨false, 0, 0, 1440, none, none, none⟩

/-- A filter section at rest (R21). -/
def SectionState.rest : SectionState := ⟨0, 0, 0, 0⟩

/-- A filter path at rest (R21). -/
def FilterPath.rest : FilterPath := ⟨.rest, .rest, .rest⟩

/-- A monitor channel at power-on (R101). -/
def MonitorChan.powerOn : MonitorChan :=
  ⟨none, false, false, none, 0, none, 0, 0, .idle, 0, none, 0, 0⟩

/-- An empty ring (R129). -/
def Ring.empty : Ring := ⟨0, 0, none⟩

/-- The machine right after power-on reset with both rate straps low: every rule's power-on value. Values no rule
states are those of log entry 8 (DESIGN CHOICE): among them `image`, which a SNAPSHOT before the first block end reports,
the spec naming no state after a most recent block end there. -/
def State.reset : State where
  port := { stalled := false, frameCounter := 0, actSample := false }
  range := .same ⟨0, 0, 0, 0, 24, false, 0, false, 0, 0⟩
  unit := .same ⟨0, .rest, .rest, 0, 0, 0, 0, [], 0, 0, 0, 0⟩
  clock := { isSet := false, now := .powerOn, pendingLoad := none, entryInForce := none }
  store := { staged := .default, active := .default, commitPending := false }
  acc :=
    { phase := .untimed, holdPending := false, openingPending := false, restartPending := false
      nextNumber := 1, carriedConfig := false, carriedClock := false, carriedGain := .same 0
      prevAct := none, guardRemaining := 2000, checkInBlock := .same false }
  interval := none
  fifo := []
  recordsLost := 0
  monitor := .same .powerOn
  nextEpisode := 1
  alert := { mode := .off, halfPeriod := 500, flashCounter := 1, high := false, pendingSetting := none }
  capture :=
    { regions := #v[.ring .ch1, .ring .ch2, .ring .ch3, .ring .ch4, .free, .free, .free, .free,
        .free, .free, .free, .free, .free, .free, .free, .free]
      rings := .same .empty, nextId := 1, protect := false, preLength := 2000, tailLength := 2000
      buffer := [], inFlight := none, lend := .owned, job := none, closeBlock := .same false }
  memory := []
  check := { phase := .idle, params := none, counter := 0, sum := 0, last := none }
  report :=
    { replies := [], reserved := 0, events := [], lostSinceSent := 0, eventsLost := 0, liveSlot := none
      liveOverwritten := 0, liveCounter := 0, eventOn := false, recordOn := false, liveOn := false
      kindMask := BitVec.allOnes 15, chanMask := BitVec.allOnes 4, livePeriod := 1000
      items := [.fLevel, .leqSoFar, .gainStep, .budgetUsed], sending := none }
  link := { rate := 0, receiver := .hunt, timeouts := 0, checkErrors := 0, overruns := 0, queue := [] }
  handed :=
    { results := .same ⟨0, 0, 0, 0, false, false, 0, 0, [], false, 0, 0, 0⟩
      report := ⟨.powerOn, .powerOn, false, false, false, false, none, 0⟩
      classes := .same .excluded
      strike := false }
  image :=
    { stamp := .powerOn, mode := .off, chans := .same ⟨0, 0, 0, none, 0, .idle⟩ }
  blockWork := none
  choice := 0
  pending := []

end Sys2Proof.Machine
end

