-- ==== Sys2Proof/Machine/Calendar.lean ====
section
/-! DEFINITION. Chapter 4: the calendar of site time, the schedule lookup, and a channel's effective limits. -/

namespace Sys2Proof.Machine

/-- A year of the range is a leap year when it is divisible by 4 (R57). -/
def isLeap (year : Nat) : Bool := year % 4 == 0

/-- The days of a month (R57). -/
def daysInMonth (year month : Nat) : Nat :=
  if month = 2 then (if isLeap year then 29 else 28)
  else if month = 4 ∨ month = 6 ∨ month = 9 ∨ month = 11 then 30 else 31

/-- The days from 2000-01-01 to the first day of `year` (R57). -/
def daysBeforeYear (year : Nat) : Nat := 365 * (year - 2000) + (year - 2000 + 3) / 4

/-- The days of `year` before the first day of `month` (R57). -/
def daysBeforeMonth (year : Nat) : Nat → Nat
  | 0 => 0
  | 1 => 0
  | m + 2 => daysBeforeMonth year (m + 1) + daysInMonth year (m + 1)

/-- The number of days from 2000-01-01 to a date (R57). -/
def dayNumber (t : Stamp) : Nat := daysBeforeYear t.year + daysBeforeMonth t.year t.month + (t.day - 1)

/-- The day of the week, Monday 0 to Sunday 6 (R57). -/
def dayOfWeek (t : Stamp) : Nat := (dayNumber t + 5) % 7

/-- The minute of day (R56). -/
def minuteOfDay (t : Stamp) : Nat := t.second / 60

/-- The next day, held at 2099-12-31 (R57, R58). -/
def nextDay (t : Stamp) : Stamp :=
  if t.day < daysInMonth t.year t.month then { t with day := t.day + 1 }
  else if t.month < 12 then { t with month := t.month + 1, day := 1 }
  else if t.year < 2099 then { t with year := t.year + 1, month := 1, day := 1 }
  else t

/-- The advance of a reading by one block (R56, R58). -/
def advance (t : Stamp) : Stamp :=
  if t.block + 1 < 1000 then { t with block := t.block + 1 }
  else if t.second + 1 < 86400 then { t with second := t.second + 1, block := 0 }
  else { nextDay t with second := 0, block := 0 }

/-- Whether the advance changes the second of day (R56). -/
def secondTurns (t : Stamp) : Bool := 1000 ≤ t.block + 1

/-- Whether the advance carries a day change, the repeated day of the clamp included (R56, R58). -/
def dayTurns (t : Stamp) : Bool := secondTurns t && decide (86400 ≤ t.second + 1)

/-- A time SET_TIME may carry (R61). -/
def Stamp.valid (t : Stamp) : Bool :=
  decide (2000 ≤ t.year) && decide (t.year ≤ 2099) && decide (1 ≤ t.month) && decide (t.month ≤ 12)
    && decide (1 ≤ t.day) && decide (t.day ≤ daysInMonth t.year t.month)
    && decide (t.second ≤ 86399) && decide (t.block ≤ 999)

/-- Whether an entry matches a day of the week and a minute of day (R66). -/
def ScheduleEntry.matchesAt (e : ScheduleEntry) (dow minute : Nat) : Bool :=
  e.valid && e.days.getLsbD dow && decide (e.startMinute ≤ minute) && decide (minute < e.endMinute)

/-- The lookup of R66 over the entries from index `i` on. -/
def lookupFrom (dow minute : Nat) : List ScheduleEntry → Nat → Lookup
  | [], _ => .noEntry
  | e :: rest, i => if e.matchesAt dow minute then .entry i else lookupFrom dow minute rest (i + 1)

/-- The schedule entry in force at an instant: the lowest matching index wins (R66). -/
def lookup (schedule : Vector ScheduleEntry 16) (t : Stamp) : Lookup :=
  lookupFrom (dayOfWeek t) (minuteOfDay t) schedule.toList 0

/-- The effective limits of a channel with limit offset `offset` (R67). -/
def effectiveLimits (schedule : Vector ScheduleEntry 16) (offset : Int) : Lookup → Limits
  | .noEntry => ⟨none, none, none⟩
  | .entry i =>
    match schedule.toList[i]? with
    | none => ⟨none, none, none⟩
    | some e =>
      ⟨e.leq.map fun l => (l : Int) + offset, e.lmax.map fun l => (l : Int) + offset,
        e.peak.map fun l => (l : Int) + offset⟩

/-- The interval length in seconds (R77). -/
def Settings.intervalSeconds (s : Settings) : Nat := s.base * s.factor

/-- N_nom of an interval of `len` seconds that opens at `t`: 48 times the blocks to the next aligned second or
midnight (R85). -/
def nominalSamples (len : Nat) (t : Stamp) : Nat :=
  48 * ((min ((t.second / len + 1) * len) 86400 - t.second) * 1000 - t.block)

end Sys2Proof.Machine
end

