-- ==== Sys2Proof/Machine/Operands.lean ====
section
/-! DEFINITION. The bodies of the link commands (R183), read field by field with the codes of R182. A reader answers
none where the command is refused with BAD_VALUE for its fields (R177). -/

namespace Sys2Proof.Machine

/-! ### Fields -/

/-- The byte at an offset of a body. -/
def field8 (b : List Byte) (i : Nat) : Nat := (b.getD i 0).toNat
/-- The unsigned two-byte field at an offset (R182). -/
def field16 (b : List Byte) (i : Nat) : Nat := field8 b i + 256 * field8 b (i + 1)
/-- The unsigned four-byte field at an offset (R182). -/
def field32 (b : List Byte) (i : Nat) : Nat := field16 b i + 65536 * field16 b (i + 2)
/-- The signed two-byte field at an offset (R182). -/
def signed16 (b : List Byte) (i : Nat) : Int := (BitVec.ofNat 16 (field16 b i)).toInt
/-- The signed four-byte field at an offset (R182). -/
def signed32 (b : List Byte) (i : Nat) : Int := (BitVec.ofNat 32 (field32 b i)).toInt

/-- A channel number, 1 to 4. -/
def chanOf : Nat → Option Chan
  | 1 => some .ch1
  | 2 => some .ch2
  | 3 => some .ch3
  | 4 => some .ch4
  | _ => none

/-- A yes/no field: codes 0 and 1 alone (R182). -/
def flagOf : Nat → Option Bool
  | 0 => some false
  | 1 => some true
  | _ => none

def activityModeOf : Nat → Option ActivityMode
  | 0 => some .off
  | 1 => some .gate
  | 2 => some .strike
  | _ => none

def alertModeOf : Nat → Option AlertMode
  | 0 => some .off
  | 1 => some .steady
  | 2 => some .flash
  | _ => none

def checkSourceOf : Nat → Option CheckSource
  | 0 => some .calibrator
  | 1 => some .internal
  | _ => none

def liveItemOf : Nat → Option LiveItem
  | 1 => some .fLevel
  | 2 => some .sLevel
  | 3 => some .leqSoFar
  | 4 => some .peakSoFar
  | 5 => some .gainStep
  | 6 => some .budgetUsed
  | 7 => some .episodeState
  | 8 => some .siteSoFar
  | _ => none

/-- `x` if the condition holds. -/
def accept {α : Type} (ok : Bool) (x : α) : Option α := if ok then some x else none

/-- `n` clamped into `lo` to `hi`. -/
def clamp (lo hi n : Nat) : Nat := max lo (min hi n)

/-! ### Body lengths (R183) -/

/-- The body length of a command kind, for the kinds 01h to 1Dh; none for any other kind (R177, R183). -/
def commandLength (kind : Byte) : Option Nat :=
  if kind.toNat = 0 then none
  else [0, 0, 0, 10, 0, 0, 18, 20, 6, 22, 16, 2, 4, 0, 0, 1, 3, 5, 15, 0, 0, 0, 0, 5, 2, 0, 0, 14, 0][kind.toNat - 1]?

/-! ### Bodies -/

/-- A ten-byte time stamp (R182). -/
def stampOf (b : List Byte) : Stamp := ⟨field16 b 0, field8 b 2, field8 b 3, field32 b 4, field16 b 8⟩

/-- SET_TIME (R61). -/
def setTimeOf (b : List Byte) : Option Stamp := accept (stampOf b).valid (stampOf b)

/-- The values EDIT_CHANNEL accepts (R76). -/
def ChannelSettings.valid (c : ChannelSettings) : Bool :=
  decide (-10000 ≤ c.k) && decide (c.k ≤ 15000) && decide (c.mainSet ≤ 3) && decide (c.peakSet ≤ 3)
    && decide (-2000 ≤ c.limitOffset) && decide (c.limitOffset ≤ 2000) && decide (c.h0 ≤ 12000)
    && decide (1 ≤ c.n1) && decide (c.n1 < c.n2) && decide (c.n2 < c.n3) && decide (c.n3 ≤ 99)
    && decide (1 ≤ c.warnPercent) && decide (c.warnPercent ≤ 99) && decide (c.hysteresis ≤ 1000)
    && decide (c.releaseTime ≤ 10000)

/-- EDIT_CHANNEL (R76). -/
def editChannelOf (b : List Byte) : Option (Chan × ChannelSettings) :=
  match chanOf (field8 b 0), flagOf (field8 b 1) with
  | some c, some enable =>
    let s : ChannelSettings :=
      { enable, k := signed16 b 2, mainSet := field8 b 4, peakSet := field8 b 5, limitOffset := signed16 b 6
        h0 := field16 b 8, n1 := field8 b 10, n2 := field8 b 11, n3 := field8 b 12, warnPercent := field8 b 13
        hysteresis := field16 b 14, releaseTime := field16 b 16 }
    accept s.valid (c, s)
  | _, _ => none

/-- The values and constraints of range settings (section 1.4, R18). -/
def RangeSettings.valid (r : RangeSettings) : Bool :=
  decide (r.gMin ≤ r.gMax) && decide (r.gMax ≤ 4) && decide (4 * r.tLo < r.tHi) && decide (r.tHi ≤ r.tImm)
    && decide (r.tImm ≤ 8380000) && decide (10 ≤ r.window) && decide (r.window ≤ 10000)
    && decide (1 ≤ r.holdOff) && decide (r.holdOff ≤ 1000) && decide (r.settle ≤ 63)

/-- EDIT_RANGE (R18). -/
def editRangeOf (b : List Byte) : Option (Chan × RangeSettings) :=
  match chanOf (field8 b 0) with
  | some c =>
    let r : RangeSettings :=
      { gMin := field8 b 1, gMax := field8 b 2, tImm := field32 b 3, tHi := field32 b 7, tLo := field32 b 11
        window := field16 b 15, holdOff := field16 b 17, settle := field8 b 19 }
    accept r.valid (c, r)
  | none => none

/-- Every code is 0 to 15 (R19). -/
def GainCodes.valid (g : GainCodes) : Bool :=
  decide (g.step0 ≤ 15) && decide (g.step1 ≤ 15) && decide (g.step2 ≤ 15) && decide (g.step3 ≤ 15)
    && decide (g.step4 ≤ 15)

/-- EDIT_GAINCODES (R19). -/
def editGainCodesOf (b : List Byte) : Option (Chan × GainCodes) :=
  match chanOf (field8 b 0) with
  | some c =>
    let g : GainCodes := ⟨field8 b 1, field8 b 2, field8 b 3, field8 b 4, field8 b 5⟩
    accept g.valid (c, g)
  | none => none

/-- EDIT_WEIGHTING: set 1 to 3, section 1 to 3 and the coefficients (R28). -/
def editWeightingOf (b : List Byte) : Option (Nat × Nat × Coeffs) :=
  accept (decide (1 ≤ field8 b 0) && decide (field8 b 0 ≤ 3) && decide (1 ≤ field8 b 1) && decide (field8 b 1 ≤ 3))
    (field8 b 0, field8 b 1, ⟨signed32 b 2, signed32 b 6, signed32 b 10, signed32 b 14, signed32 b 18⟩)

/-- A limit with its present byte at an offset: NONE is not examined (R65, R183). -/
def entryLimitOf (b : List Byte) (i : Nat) : Option (Option Nat) :=
  match flagOf (field8 b i) with
  | some false => some none
  | some true => accept (decide (field16 b (i + 1) ≤ 20000)) (some (field16 b (i + 1)))
  | none => none

/-- EDIT_LIMITS: the entry index and the entry (R65). -/
def editLimitsOf (b : List Byte) : Option (Fin 16 × ScheduleEntry) :=
  match flagOf (field8 b 1), entryLimitOf b 7, entryLimitOf b 10, entryLimitOf b 13 with
  | some valid, some leq, some lmax, some peak =>
    if h : field8 b 0 < 16 then
      accept (decide (field8 b 2 < 128) && decide (field16 b 3 ≤ 1439) && decide (field16 b 5 ≤ 1440)
          && decide (field16 b 3 < field16 b 5))
        (⟨field8 b 0, h⟩,
          { valid, days := BitVec.ofNat 7 (field8 b 2), startMinute := field16 b 3, endMinute := field16 b 5
            leq, lmax, peak })
    else none
  | _, _, _, _ => none

/-- EDIT_INTERVAL: base and factor (R77). -/
def editIntervalOf (b : List Byte) : Option (Nat × Nat) :=
  accept ((field8 b 0 == 1 || field8 b 0 == 10 || field8 b 0 == 60) && decide (1 ≤ field8 b 1)
      && decide (field8 b 1 ≤ 60))
    (field8 b 0, field8 b 1)

/-- EDIT_ACTIVITY: mode, polarity and guard (R78). -/
def editActivityOf (b : List Byte) : Option (ActivityMode × Bool × Nat) :=
  match activityModeOf (field8 b 0), flagOf (field8 b 1) with
  | some mode, some polarity => accept (decide (field16 b 2 ≤ 5000)) (mode, polarity, field16 b 2)
  | _, _ => none

/-- SET_ALERT: mode and clamped half-period (R122). -/
def setAlertOf (b : List Byte) : Option (AlertMode × Nat) :=
  (alertModeOf (field8 b 0)).map fun m => (m, clamp 50 2000 (field16 b 1))

/-- SET_CAPTURE: protect, clamped pre length and clamped tail length (R140). -/
def setCaptureOf (b : List Byte) : Option (Bool × Nat × Nat) :=
  (flagOf (field8 b 0)).map fun p => (p, clamp 0 2000 (field16 b 1), clamp 0 5000 (field16 b 3))

/-- The items of the first `count` bytes of an item list, none if one is no item (R170, R183). -/
def liveItemsOf (codes : List Byte) : Option (List LiveItem) :=
  codes.foldr (fun c rest => match liveItemOf c.toNat, rest with
    | some i, some is => some (i :: is)
    | _, _ => none) (some [])

/-- Whether an item list names no item twice (R170). -/
def distinctItems : List LiveItem → Bool
  | [] => true
  | i :: rest => !rest.contains i && distinctItems rest

/-- The settings SET_REPORTING carries (R170). -/
structure Reporting where
  eventOn : Bool
  recordOn : Bool
  liveOn : Bool
  kindMask : BitVec 15
  chanMask : BitVec 4
  livePeriod : Nat
  items : List LiveItem
  deriving DecidableEq, Repr

/-- SET_REPORTING, with the live period clamped (R170, R177, R183). -/
def setReportingOf (b : List Byte) : Option Reporting :=
  match liveItemsOf ((b.drop 7).take (field8 b 6)) with
  | some items =>
    accept (decide (field8 b 0 < 8) && decide (field16 b 1 < 32768) && decide (field8 b 3 < 16)
        && decide (1 ≤ field8 b 6) && decide (field8 b 6 ≤ 8) && distinctItems items)
      { eventOn := (field8 b 0).testBit 0, recordOn := (field8 b 0).testBit 1, liveOn := (field8 b 0).testBit 2
        kindMask := BitVec.ofNat 15 (field16 b 1), chanMask := BitVec.ofNat 4 (field8 b 3)
        livePeriod := clamp 100 10000 (field16 b 4), items }
  | none => none

/-- START_CHECK (R148). The expected level is examined for CALIBRATOR, amplitude and gain step for INTERNAL. -/
def startCheckOf (b : List Byte) : Option CheckParams :=
  match chanOf (field8 b 0), checkSourceOf (field8 b 1), flagOf (field8 b 8) with
  | some c, some source, some adjust =>
    let p : CheckParams :=
      { chan := c, source, expected := signed16 b 2, tolerance := field16 b 4, measureTime := field16 b 6, adjust
        amplitude := field32 b 9, gain := field8 b 13 }
    accept (decide (1 ≤ p.tolerance) && decide (p.tolerance ≤ 500) && decide (1000 ≤ p.measureTime)
        && decide (p.measureTime ≤ 30000)
        && (match source with
          | .calibrator => decide (0 ≤ p.expected) && decide (p.expected ≤ 20000)
          | .internal => decide (1 ≤ p.amplitude) && decide (p.amplitude ≤ 8000000) && decide (p.gain ≤ 4)
              && decide (256 ≤ p.amplitude * 4 ^ (4 - p.gain))))
      p
  | _, _, _ => none

end Sys2Proof.Machine
end

