-- ==== Sys2Proof/Machine/Levels.lean ====
section
/-! DEFINITION. Chapter 3: the level function, its inversion into thresholds, site contribution, and percentiles.
All of it is exact integer arithmetic: a comparison of v/n with 10^((m − 1/2)/1000) is taken to the 2000th power. -/

namespace Sys2Proof.Machine

/-- The sentinel NOSIG (R47). -/
def nosig : Int := -32768
/-- The sentinel INDET (R47). -/
def indet : Int := -32767
/-- The sentinel BELOW (R47). -/
def below : Int := -32766
/-- The sentinel ABOVE (R47). -/
def above : Int := 32767

/-- 10^((m − 1/2)/1000) ≤ v/n, both sides raised to the power 2000 (R40). -/
def reaches (v n : Nat) (m : Int) : Bool :=
  if 1 ≤ m then decide (10 ^ (2 * m - 1).toNat * n ^ 2000 ≤ v ^ 2000)
  else decide (n ^ 2000 ≤ v ^ 2000 * 10 ^ (1 - 2 * m).toNat)

/-- Binary search: the greatest x below `acc + 2^bits` with `p x`, when `p acc` and `p` only ever turns from true to
false. -/
def greatest (p : Nat → Bool) : Nat → Nat → Nat
  | 0, acc => acc
  | bits + 1, acc => if p (acc + 2 ^ bits) then greatest p bits (acc + 2 ^ bits) else greatest p bits acc

/-- A lower bound of round(1000 · log10(v/n)) for v ≥ 1. -/
def logLow (n : Nat) : Int := -(304 * (n.log2 + 1 : Nat) : Int)

/-- The width of the range that round(1000 · log10(v/n)) is searched in. -/
def logSpan (v n : Nat) : Nat := 304 * (n.log2 + 1) + 304 * (v.log2 + 1) + 1

/-- round(1000 · log10(v/n)) for v, n > 0: the greatest m with 10^((m − 1/2)/1000) ≤ v/n (R40). -/
def logLevel (v n : Nat) : Int :=
  logLow n + (greatest (fun d => reaches v n (logLow n + d)) ((logSpan v n).log2 + 1) 0 : Nat)

/-- L(v, n) with calibration constant `k` (R40). For v > 0 and n = 0, where R40 states no value, it is the free value
of log entry 11. -/
def level (k : Int) (v n : Nat) : Int :=
  if v = 0 then nosig
  else if n = 0 then Config.levelOverNoSamples v
  else logLevel v n + k

/-- The level of a detector value (R44). -/
def detectorLevel (k : Int) (y : Nat) : Int := level k y 48

/-- Lpk(P): 2000 · log10(P / 256) is 1000 · log10(P² / 2^16) (R45). -/
def peakLevel (k : Int) (p : Nat) : Int := level k (p ^ 2) 65536

/-- The level of an extreme that may be empty (R44, R45, R94). -/
def extremeLevel (f : Nat → Int) : Option Nat → Int
  | none => nosig
  | some y => f y

/-- SEL = L(Q, 48,000) (R46). -/
def soundExposure (k : Int) (q : Nat) : Int := level k q 48000

/-- The largest v ≤ cap whose level over n samples does not exceed `bound` plus K, 0 always counting (R49). -/
def largestWithin (n cap : Nat) (bound : Int) : Nat :=
  greatest (fun v => decide (v ≤ cap) && !reaches v n (bound + 1)) (cap.log2 + 1) 0

/-- Budget B for an effective Leq limit (R49). -/
def budgetOf (k limit : Int) (nNom : Nat) : Nat := largestWithin nNom (nNom * 2 ^ 46) (limit - k)

/-- Episode threshold Y, and Yr with the bound in place of the limit (R49, R102). -/
def episodeThreshold (k limit : Int) : Nat := largestWithin 48 (48 * 2 ^ 46) (limit - k)

/-- Peak threshold A (R49). -/
def peakThreshold (k limit : Int) : Nat :=
  greatest (fun p => decide (p ≤ 2 ^ 31) && !reaches (p ^ 2) 65536 (limit - k + 1)) 32 0

/-- Lsite (R52). -/
def siteContribution (mode : ActivityMode) (k : Int) (sumActive nActive sumQuiet nQuiet : Nat) : Int :=
  let leqActive := level k sumActive nActive
  let leqQuiet := level k sumQuiet nQuiet
  if mode ≠ .gate ∨ nActive = 0 ∨ nQuiet = 0 ∨ leqActive = nosig
      ∨ (leqQuiet ≠ nosig ∧ leqActive - leqQuiet < 300) then indet
  else level k (sumActive * nQuiet - sumQuiet * nActive) (nActive * nQuiet)

/-- Where an F level falls in a histogram with base `h0`: below bin 0, in a regular bin, or above bin 239 (R53). -/
def histogramBin (h0 : Nat) (l : Int) : Int := (l - h0) / 50

/-- The scan of R54 over the regular bins from bin 239 down: `bins` holds them in that order, `i` is one more than
the number of the first, `total` the running total so far. -/
def percentileScan (h0 rank : Nat) : List Nat → Nat → Nat → Int
  | [], _, _ => below
  | count :: rest, i, total =>
    if rank ≤ total + count then (h0 : Int) + 50 * ((i : Int) - 1)
    else percentileScan h0 rank rest (i - 1) (total + count)

/-- The percentile for point `n` (R54). -/
def percentile (h0 : Nat) (bins : List Nat) (overflow th n : Nat) : Int :=
  if th = 0 then nosig
  else
    let rank := (n * th + 99) / 100
    if rank ≤ overflow then above else percentileScan h0 rank bins.reverse bins.length overflow

end Sys2Proof.Machine
end

