-- ==== Sys2Proof/Machine/Wire.lean ====
section
/-! DEFINITION. Chapter 10: the byte layouts of everything that crosses the link or lies in the capture memory.
Multi-byte fields are little-endian and signed fields two's complement (R182). -/

namespace Sys2Proof.Machine

/-! ### Fields -/

def byteOf (n : Nat) : Byte := BitVec.ofNat 8 n

/-- An unsigned field of one byte. -/
def u8 (n : Nat) : List Byte := [byteOf n]
/-- An unsigned field of two bytes (R182). -/
def u16 (n : Nat) : List Byte := [byteOf n, byteOf (n / 256)]
/-- An unsigned field of four bytes (R182). -/
def u32 (n : Nat) : List Byte := [byteOf n, byteOf (n / 256), byteOf (n / 65536), byteOf (n / 16777216)]
/-- A signed field of two bytes (R182). -/
def i16 (x : Int) : List Byte := u16 (x % 65536).toNat
/-- A signed field of four bytes (R182). -/
def i32 (x : Int) : List Byte := u32 (x % 4294967296).toNat
/-- A field of one byte that is yes or no (R182). -/
def flag (b : Bool) : List Byte := u8 b.toNat

/-- A time stamp of ten bytes (R182). -/
def stampBytes (t : Stamp) : List Byte := u16 t.year ++ u8 t.month ++ u8 t.day ++ u32 t.second ++ u16 t.block

/-! ### Codes (R182, R185, R186) -/

def ActivityMode.code : ActivityMode → Nat
  | .off => 0 | .gate => 1 | .strike => 2
def MeasState.code : MeasState → Nat
  | .untimed => 0 | .measuring => 1 | .held => 2
def AlertMode.code : AlertMode → Nat
  | .off => 0 | .steady => 1 | .flash => 2
def CheckPhase.code : CheckPhase → Nat
  | .idle => 0 | .settling => 1 | .collecting => 2
def CheckSource.code : CheckSource → Nat
  | .calibrator => 0 | .internal => 1
def LendState.code : LendState → Nat
  | .owned => 0 | .lending => 1 | .lent => 2
def EpisodePhase.code : EpisodePhase → Nat
  | .idle => 0 | .opened => 1 | .releasing => 2
def CloseReason.code : CloseReason → Nat
  | .released => 0 | .limitRemoved => 1 | .stalled => 2 | .check => 3 | .reset => 4
def CloseCause.code : CloseCause → Nat
  | .aligned => 0 | .midnight => 1 | .schedule => 2 | .clockSet => 3 | .resumeStart => 4
def CheckEnd.code : CheckEnd → Nat
  | .pass => 0 | .fail => 1 | .overload => 2 | .stalled => 3 | .aborted => 4 | .configChanged => 5 | .reset => 6
def Adjustment.code : Adjustment → Nat
  | .notAsked => 0 | .notCalibrator => 1 | .noSignal => 2 | .outOfWindow => 3 | .commitPending => 4
  | .kRange => 5 | .made => 6 | .notCompleted => 7
def MissReason.code : MissReason → Nat
  | .isProtected => 0 | .lent => 1
def LiveItem.code : LiveItem → Nat
  | .fLevel => 1 | .sLevel => 2 | .leqSoFar => 3 | .peakSoFar => 4 | .gainStep => 5 | .budgetUsed => 6
  | .episodeState => 7 | .siteSoFar => 8
/-- The code of an event kind (R182). -/
def EventBody.kindCode : EventBody → Nat
  | .episodeOpen .. => 1 | .episodeClosed _ => 2 | .peak .. => 3 | .budgetWarn .. => 4 | .budgetSpent .. => 5
  | .inputStalled _ => 6 | .inputResumed _ => 7 | .captureStored .. => 8 | .captureDiscarded .. => 9
  | .captureMissed .. => 10 | .checkDone _ => 11 | .memoryLent => 12 | .configApplied _ => 13
  | .holdEntered _ => 14 | .recordsLost .. => 15
/-- The entry index of a record or of STATUS, FEh for NO_ENTRY (R179, R186). -/
def Lookup.code : Lookup → Nat
  | .noEntry => 0xFE
  | .entry i => i
def chanCode : Option Chan → Nat
  | none => 0
  | some c => c.number

/-! ### Bodies -/

/-- A descriptor of 31 bytes, as CAPTURE_STORED and LIST_CAPTURES carry it; `role` is RECORDING 1 or STORED 2
(R185). -/
def descriptorBytes (region : Nat) (role : Nat) (tail : Option Nat) (d : Descriptor) : List Byte :=
  u16 d.id ++ u8 region ++ u8 role ++ u8 d.chan.number ++ u32 d.firstEpisode ++ u16 d.episodeCount
    ++ stampBytes d.trigger ++ u16 d.pre ++ u16 d.length ++ u16 d.start ++ u16 (tail.getD 0xFFFF)
    ++ u8 (d.truncated.toNat + 2 * d.dropout.toNat + 4 * d.lentGap.toNat) ++ u8 d.age

/-- A result record of 20 bytes; a deviation of NOSIG is −2^31 (R185). -/
def checkRecordBytes (r : CheckRecord) : List Byte :=
  u8 r.chan.number ++ u8 r.source.code ++ u8 r.result.code ++ i16 r.measured ++ i16 r.expected
    ++ i32 (r.deviation.getD (-2147483648)) ++ u16 r.tolerance ++ u16 r.measureTime ++ u16 r.blocksMeasured
    ++ u8 r.adjustment.code ++ i16 r.stagedK

/-- An episode record of 46 bytes (R185). -/
def episodeRecordBytes (r : EpisodeRecord) : List Byte :=
  u32 r.number ++ u8 r.chan.number ++ stampBytes r.start ++ stampBytes r.stop ++ u32 r.duration ++ i16 r.maxLevel
    ++ stampBytes r.maxTime ++ i16 r.sel ++ u16 (r.captureId.getD 0) ++ u8 r.reason.code

/-- The body of an event's kind (R185). DESIGN CHOICE (log entry 26): the interval number of a HOLD_ENTERED whose
present byte is 0, for which R185 states no value, is a free value. -/
def EventBody.bytes : EventBody → List Byte
  | .episodeOpen number fLevel limit => u32 number ++ i16 fLevel ++ i16 limit
  | .episodeClosed r => episodeRecordBytes r
  | .peak level limit suppressed => i16 level ++ i16 limit ++ u16 suppressed
  | .budgetWarn used limit interval => u16 used ++ i16 limit ++ u32 interval
  | .budgetSpent used limit interval => u16 used ++ i16 limit ++ u32 interval
  | .inputStalled frame => u8 frame
  | .inputResumed millis => u32 millis
  | .captureStored region d => descriptorBytes region 2 none d
  | .captureDiscarded id chan first count taking =>
    u16 id ++ u8 chan.number ++ u32 first ++ u16 count ++ u32 taking
  | .captureMissed episode reason => u32 episode ++ u8 reason.code
  | .checkDone r => checkRecordBytes r
  | .memoryLent => []
  | .configApplied atBoundary => flag atBoundary
  | .holdEntered (some interval) => flag true ++ u32 interval
  | .holdEntered none => flag false ++ (List.range 4).map Config.unstatedByte
  | .recordsLost interval chan count => u32 interval ++ u8 chan.number ++ u16 count

/-- An event notice with its lost-before count (R185). -/
def noticeBytes (n : Notice) (lostBefore : Nat) : List Byte :=
  u8 n.body.kindCode ++ u8 (chanCode n.chan) ++ stampBytes n.stamp ++ u8 lostBefore ++ n.body.bytes

/-- A live report (R185). -/
def liveReportBytes (r : LiveReport) : List Byte :=
  stampBytes r.stamp ++ u16 r.overwritten ++ u8 r.items.length ++ r.items.flatMap (fun i => u8 i.code)
    ++ r.values.toList.flatMap (fun vs => vs.flatMap i16)

/-- A limit in a record: 0 where it is not present (R186). -/
def limitField (l : Option Int) : List Byte := i16 (l.getD 0)

/-- An interval record of 116 bytes (R186). -/
def recordBytes (r : IntervalRecord) : List Byte :=
  u32 r.number ++ u8 r.chan.number ++ stampBytes r.openTime ++ stampBytes r.closeTime ++ u8 r.cause.code
    ++ u8 r.entry.code
    ++ u8 (r.limits.leq.isSome.toNat + 2 * r.limits.lmax.isSome.toNat + 4 * r.limits.peak.isSome.toNat)
    ++ limitField r.limits.leq ++ limitField r.limits.lmax ++ limitField r.limits.peak
    ++ u32 r.n ++ u32 r.active ++ u32 r.quiet ++ u32 r.transition ++ u32 r.excluded
    ++ i16 r.leq ++ i16 r.leqActive ++ i16 r.leqQuiet ++ i16 r.site ++ i16 r.lfMax ++ i16 r.lfMin ++ i16 r.lsMax
    ++ i16 r.lpk ++ i16 r.p1 ++ i16 r.p2 ++ i16 r.p3 ++ u8 r.n1 ++ u8 r.n2 ++ u8 r.n3
    ++ u32 r.overloadBlocks ++ u32 r.settlingSamples ++ u32 r.saturations ++ u32 r.gainChanges ++ u32 r.peaksOver
    ++ u32 r.episodesOpened ++ u32 r.histSamples ++ u32 r.strikes ++ u16 r.budgetUsed ++ u8 r.finalGain
    ++ u16 r.flags.toNat

/-- A capture block of 100 bytes (R125, R187): each sample is floor(x / 256). -/
def captureBlockBytes (gain : Nat) (overload settling excluded : Bool) (block : Nat) (raw : List Int) : List Byte :=
  u8 gain ++ u8 (overload.toNat + 2 * settling.toNat + 4 * excluded.toNat) ++ u16 block
    ++ raw.flatMap (fun x => i16 (x / 256))

/-! ### Settings groups (R184) -/

/-- EDIT_INTERVAL then EDIT_ACTIVITY, 6 bytes. -/
def generalBytes (s : Settings) : List Byte :=
  u8 s.base ++ u8 s.factor ++ u8 s.mode.code ++ flag s.polarityHigh ++ u16 s.guardLength

/-- EDIT_CHANNEL without its channel number, 17 bytes. -/
def channelSettingsBytes (c : ChannelSettings) : List Byte :=
  flag c.enable ++ i16 c.k ++ u8 c.mainSet ++ u8 c.peakSet ++ i16 c.limitOffset ++ u16 c.h0 ++ u8 c.n1 ++ u8 c.n2
    ++ u8 c.n3 ++ u8 c.warnPercent ++ u16 c.hysteresis ++ u16 c.releaseTime

/-- EDIT_RANGE without its channel number, 19 bytes. -/
def rangeSettingsBytes (r : RangeSettings) : List Byte :=
  u8 r.gMin ++ u8 r.gMax ++ u32 r.tImm ++ u32 r.tHi ++ u32 r.tLo ++ u16 r.window ++ u16 r.holdOff ++ u8 r.settle

/-- The five codes of EDIT_GAINCODES. -/
def gainCodesBytes (g : GainCodes) : List Byte := u8 g.step0 ++ u8 g.step1 ++ u8 g.step2 ++ u8 g.step3 ++ u8 g.step4

/-- A channel's group, 41 bytes. -/
def channelGroupBytes (s : Settings) (c : Chan) : List Byte :=
  channelSettingsBytes (s.chan.get c) ++ rangeSettingsBytes (s.range.get c) ++ gainCodesBytes (s.codes.get c)

def coeffsBytes (c : Coeffs) : List Byte := i32 c.b0 ++ i32 c.b1 ++ i32 c.b2 ++ i32 c.a1 ++ i32 c.a2

def weightingSetBytes (w : WeightingSet) : List Byte := coeffsBytes w.first ++ coeffsBytes w.second ++ coeffsBytes w.third

/-- The weighting group, 180 bytes. -/
def weightingBytes (s : Settings) : List Byte := weightingSetBytes s.w1 ++ weightingSetBytes s.w2 ++ weightingSetBytes s.w3

/-- A limit of a schedule entry: NONE is present 0 and value 0 (R184). -/
def entryLimitBytes (l : Option Nat) : List Byte := flag l.isSome ++ u16 (l.getD 0)

/-- EDIT_LIMITS without its index, 15 bytes. -/
def scheduleEntryBytes (e : ScheduleEntry) : List Byte :=
  flag e.valid ++ u8 e.days.toNat ++ u16 e.startMinute ++ u16 e.endMinute ++ entryLimitBytes e.leq
    ++ entryLimitBytes e.lmax ++ entryLimitBytes e.peak

/-- The schedule group, 240 bytes. -/
def scheduleBytes (s : Settings) : List Byte := s.schedule.toList.flatMap scheduleEntryBytes

/-! ### Link frames (R173) -/

/-- The check byte that brings the sum of `bytes` and itself to 0 modulo 256. -/
def checkByte (bytes : List Byte) : Byte := -(bytes.foldl (· + ·) 0)

/-- The bytes of a frame after its start byte and before its check byte. -/
def frameInner (kind tag : Byte) (body : List Byte) : List Byte := u16 body.length ++ [kind, tag] ++ body

/-- The bytes of a link frame: start A5h, length, kind, tag, body and check. -/
def frameBytes (kind tag : Byte) (body : List Byte) : List Byte :=
  0xA5 :: (frameInner kind tag body ++ [checkByte (frameInner kind tag body)])

end Sys2Proof.Machine
end

