-- ==== Sys2Proof/Machine/Ops.lean ====
section
/-! DEFINITION. The operations every unit shares: one unit's part of the state, the byte memory behind the memory
port, the report queue's stores and transmit selection (chapter 9), and the free choice of an order. -/

namespace Sys2Proof.Machine

/-- `x + 1`, stopping at `top`. -/
def bump (top x : Nat) : Nat := min top (x + 1)

/-- `x + n`, stopping at `top`. -/
def addUpTo (top x n : Nat) : Nat := min top (x + n)

/-- The greatest 32-bit value. -/
def max32 : Nat := 4294967295

/-- The number after `n` in a sequence of 32-bit numbers (R85, R108). -/
def next32 (n : Nat) : Nat := (n + 1) % 4294967296

/-! ### One unit's part of the state -/

def State.setRange (s : State) (c : Chan) (r : RangeCtl) : State := { s with range := s.range.set c r }
def State.setUnit (s : State) (c : Chan) (u : WeightUnit) : State := { s with unit := s.unit.set c u }
def State.setMonitor (s : State) (c : Chan) (m : MonitorChan) : State := { s with monitor := s.monitor.set c m }
def State.setRing (s : State) (c : Chan) (r : Ring) : State :=
  { s with capture := { s.capture with rings := s.capture.rings.set c r } }
def State.setRole (s : State) (i : Fin 16) (r : Role) : State :=
  { s with capture := { s.capture with regions := s.capture.regions.set i r } }
def State.setResults (s : State) (c : Chan) (r : BlockResults) : State :=
  { s with handed := { s.handed with results := s.handed.results.set c r } }

/-- The results of channel `c` handed at the most recent block end. -/
def State.results (s : State) (c : Chan) : BlockResults := s.handed.results.get c

/-- The active copy of the configuration store (R74). -/
def State.active (s : State) : Settings := s.store.active

/-- The calibration constant in force on a channel (R42). -/
def State.k (s : State) (c : Chan) : Int := (s.active.chan.get c).k

/-! ### Byte memory (R126) -/

/-- What an address that nothing has been written to reads as: log entry 9. -/
def Memory.unwritten : Byte := 0

/-- The byte at an address. -/
def Memory.read : List Host.Cell → Nat → Byte
  | [], _ => Memory.unwritten
  | (a, b) :: rest, addr => if a = addr then b else Memory.read rest addr

/-- `m` with `b` at `addr`, in canonical form: addresses rising, no entry equal to what an unlisted address reads. -/
def Memory.write : List Host.Cell → Nat → Byte → List Host.Cell
  | [], addr, b => if b = Memory.unwritten then [] else [(addr, b)]
  | (a, x) :: rest, addr, b =>
    if addr < a then (if b = Memory.unwritten then (a, x) :: rest else (addr, b) :: (a, x) :: rest)
    else if addr = a then (if b = Memory.unwritten then rest else (a, b) :: rest)
    else (a, x) :: Memory.write rest addr b

/-- Writing consecutive bytes from an address. -/
def Memory.writeAll (m : List Host.Cell) (addr : Nat) : List Byte → List Host.Cell
  | [] => m
  | b :: rest => Memory.writeAll (Memory.write m addr b) (addr + 1) rest

/-- The `n` bytes from an address. -/
def Memory.readAll (m : List Host.Cell) (addr : Nat) : Nat → List Byte
  | 0 => []
  | n + 1 => Memory.read m addr :: Memory.readAll m (addr + 1) n

/-- Any list of cells brought into canonical form, a later cell for an address winning. -/
def Memory.ofCells (cells : List Host.Cell) : List Host.Cell :=
  cells.foldl (fun m c => Memory.write m c.1 c.2) []

/-- The canonical form: addresses strictly rising from above `low`, no listed byte equal to an unwritten one. -/
def Memory.wfFrom : Nat → List Host.Cell → Bool
  | _, [] => true
  | low, (a, b) :: rest => decide (low ≤ a) && decide (b ≠ Memory.unwritten) && Memory.wfFrom (a + 1) rest

/-- The memory is in canonical form. -/
def Memory.wf (m : List Host.Cell) : Bool := Memory.wfFrom 0 m

/-- The address of position `p` of region `r` (R126). -/
def captureAddress (r : Fin 16) (p : Nat) : Nat := r.val * 1000000 + 100 * p

/-- The position `n` places after `p` in circular order (R126). -/
def circular (p n : Nat) : Nat := (p + n) % Config.regionPositions

/-! ### The report queue (chapter 9) -/

/-- The oldest notice leaves the event queue as a message with its lost-before count (R163, R169). -/
def ReportQueue.afterNotice (q : ReportQueue) (rest : List Notice) : ReportQueue :=
  { q with events := rest, lostSinceSent := 0 }

/-- Transmit selection: with the transmitter idle, the first available of a reply, an event, a record and the live
report leaves its store and is in transmission (R169). -/
def State.transmit (s : State) : State :=
  match s.report.sending with
  | some _ => s
  | none =>
    match s.report.replies with
    | m :: rest => { s with report := { s.report with replies := rest, sending := some m } }
    | [] =>
      match s.report.eventOn, s.report.events with
      | true, n :: rest =>
        { s with
          report :=
            { s.report.afterNotice rest with
              sending := some ⟨0x70, 0, noticeBytes n s.report.lostSinceSent⟩ } }
      | _, _ =>
        match s.report.recordOn, s.fifo with
        | true, r :: rest =>
          { s with fifo := rest, report := { s.report with sending := some ⟨0x71, 0, recordBytes r⟩ } }
        | _, _ =>
          match s.report.liveSlot with
          | some r =>
            { s with
              report := { s.report with liveSlot := none, sending := some ⟨0x72, 0, liveReportBytes r⟩ } }
          | none => s

/-- A reply enters the reply queue, and the transmitter chooses if it is idle (R161, R169). -/
def State.reply (s : State) (kind tag : Byte) (body : List Byte) : State :=
  State.transmit { s with report := { s.report with replies := s.report.replies ++ [⟨kind, tag, body⟩] } }

/-- Whether an event passes the masks (R162). -/
def ReportQueue.passes (q : ReportQueue) (c : Option Chan) (body : EventBody) : Bool :=
  q.kindMask.getLsbD (body.kindCode - 1)
    && match c with
      | none => true
      | some c => q.chanMask.getLsbD (c.number - 1)

/-- A notice enters the event queue, the oldest leaving a full one and counted lost (R163). -/
def ReportQueue.enqueue (q : ReportQueue) (n : Notice) : ReportQueue :=
  if q.events.length < Config.eventQueueSize then { q with events := q.events ++ [n] }
  else
    { q with
      events := q.events.tail ++ [n]
      lostSinceSent := bump 255 q.lostSinceSent
      eventsLost := bump 65535 q.eventsLost }

/-- A block offers an event with its time stamp (R162). -/
def State.offer (s : State) (c : Option Chan) (stamp : Stamp) (body : EventBody) : State :=
  if s.report.passes c body then State.transmit { s with report := s.report.enqueue ⟨c, stamp, body⟩ } else s

/-- `s` with its transmitter engaged, so that no message is chosen (R169). -/
def State.engaged (s : State) : State :=
  { s with report := { s.report with sending := some (s.report.sending.getD ⟨0, 0, []⟩) } }

/-- `f` taken while the report queue chooses no message: a transmitter that stands idle stays idle, and one that is
sending goes on (R171). -/
def State.withoutChoosing (f : State → State) (s : State) : State :=
  { f s.engaged with report := { (f s.engaged).report with sending := s.report.sending } }

/-- A record enters the record FIFO. With 128 held, the oldest is discarded first, counted, and reported by
RECORDS_LOST (R98). -/
def State.putRecord (s : State) (stamp : Stamp) (r : IntervalRecord) : State :=
  let s :=
    match s.fifo with
    | oldest :: rest =>
      if Config.fifoSize ≤ s.fifo.length then
        let lost := bump 65535 s.recordsLost
        State.offer { s with fifo := rest, recordsLost := lost } none stamp
          (.recordsLost oldest.number oldest.chan lost)
      else s
    | [] => s
  State.transmit { s with fifo := s.fifo ++ [r] }

/-! ### Free orders (log entry 5) -/

/-- `l` taken one at a time, at each moment a ready one of those left, by the answers `pick k`, `pick (k+1)`, …. A
single candidate leaves no choice. The first argument is how many are taken. -/
def schedule {α : Type} [DecidableEq α] (ready : List α → α → Bool) (pick : Nat → Nat) :
    Nat → Nat → List α → List α
  | 0, _, l => l
  | n + 1, k, l =>
    match l.filter (ready l) with
    | [] => l
    | [t] => t :: schedule ready pick n (k + 1) (l.erase t)
    | t :: u :: rest =>
      let x := (t :: u :: rest).getD (pick k % (rest.length + 2)) t
      x :: schedule ready pick n (k + 1) (l.erase x)

/-- Any order of `l`. -/
def anyOrder {α : Type} [DecidableEq α] (pick : Nat → Nat) (k : Nat) (l : List α) : List α :=
  schedule (fun _ _ => true) pick l.length k l

/-- `f` applied for each of `l` in a free order. -/
def State.eachFreely {α : Type} [DecidableEq α] (pick : Nat → Nat) (l : List α) (f : α → State → State)
    (s : State) : State :=
  (anyOrder pick s.choice l).foldl (fun s x => f x s) { s with choice := s.choice + l.length }

end Sys2Proof.Machine
end

