-- ==== Sys2Proof/Machine/MemoryPort.lean ====
section
/-! DEFINITION. Chapter 7, sections 7.5 and 7.7: the write buffer, the memory port's arbiter, the completion of a write
or a read, and the drain before a lend. -/

namespace Sys2Proof.Machine

/-- Whether an entry or a write in flight is addressed to a position (R139). -/
def Capture.writesTo (k : Capture) (region : Fin 16) (position : Nat) : Bool :=
  k.buffer.any (fun e => decide (e.region = region) && decide (e.position = position))
    || match k.inFlight with
      | some (.write e) => decide (e.region = region) && decide (e.position = position)
      | _ => false

/-- The position a waiting read takes next: that of a READ_CAPTURE in execution with a position left, unless a write
to that position is still to be made (R139). -/
def Capture.waitingRead (k : Capture) : Option (Fin 16 × Nat) :=
  match k.job with
  | none => none
  | some j =>
    let position := circular j.start (j.first + j.got.length)
    if j.got.length < j.count ∧ k.writesTo j.region position = false then some (j.region, position) else none

/-- The operation the arbiter of an idle port chooses, with the buffer it leaves (R138). -/
def Capture.choose (k : Capture) : Option (MemoryOp × List BufferEntry) :=
  match k.buffer, k.waitingRead with
  | e :: rest, some (region, position) =>
    if 3 ≤ (e :: rest).length then some (.write e, rest) else some (.read region position, e :: rest)
  | e :: rest, none => some (.write e, rest)
  | [], some (region, position) => some (.read region position, [])
  | [], none => none

/-- The arbiter: an idle port of a memory that is not lent begins the operation it chooses (R138). -/
def Capture.arbitrate (k : Capture) : Capture :=
  match k.inFlight, k.lend with
  | some _, _ => k
  | none, .lent => k
  | none, _ =>
    match k.choose with
    | some (op, rest) => { k with inFlight := some op, buffer := rest }
    | none => k

/-- The arbiter of the part. -/
def State.arbitrate (s : State) : State := { s with capture := s.capture.arbitrate }

/-- A capture block would be accepted: it is offered and finds room (R128, R137). -/
def Capture.accepts (k : Capture) : Bool :=
  decide (k.lend = .owned) && decide (k.buffer.length < Config.writeBufferSize)

/-- A capture block enters the write buffer, and the port chooses if it is idle (R137, R138). -/
def Capture.push (k : Capture) (e : BufferEntry) : Capture := Capture.arbitrate { k with buffer := k.buffer ++ [e] }

/-- A drain that has left the buffer empty with no write in flight makes the lend state LENT, and MEMORY_LENT is
offered with the reading as it stands (R144). -/
def State.drain (s : State) : State :=
  match s.capture.lend, s.capture.buffer, s.capture.inFlight with
  | .lending, [], none =>
    State.offer { s with capture := { s.capture with lend := .lent } } none s.clock.now .memoryLent
  | _, _, _ => s

/-- The completion of a write: the block stands in the memory, the arbiter chooses, and a drain may end (R138,
R144). -/
def State.completeWrite (s : State) (e : BufferEntry) : State :=
  ({ s with
      memory := Memory.writeAll s.memory (captureAddress e.region e.position) e.bytes
      capture := { s.capture with inFlight := none } } : State).arbitrate.drain

/-- The body of the READ_CAPTURE reply (R184). -/
def ReadJob.replyBody (j : ReadJob) : List Byte := u8 0 ++ u16 j.id ++ u16 j.first ++ u8 j.count ++ j.got.flatten

/-- The completion of a read: the block read joins the job, the last one forms the reply, and the arbiter chooses
(R138, R141). -/
def State.completeRead (s : State) (region : Fin 16) (position : Nat) : State :=
  let block := Memory.readAll s.memory (captureAddress region position) Config.captureBlockBytes
  let s := { s with capture := { s.capture with inFlight := none } }
  match s.capture.job with
  | none => s.arbitrate
  | some j =>
    let j := { j with got := j.got ++ [block] }
    if j.got.length < j.count then State.arbitrate { s with capture := { s.capture with job := some j } }
    else
      (State.reply
        { s with capture := { s.capture with job := none }, report := { s.report with reserved := 0 } }
        0x98 j.tag j.replyBody).arbitrate

end Sys2Proof.Machine
end

