-- ==== Sys2Proof/Machine/Capture.lean ====
section
/-! DEFINITION. Chapter 7: regions, rings and captures: starting a capture at an episode's opening, its blocks at each
block end, its end, and the resets of rings. -/

namespace Sys2Proof.Machine

/-! ### Regions and captures -/

/-- The descriptor of a region's capture. -/
def Role.descriptor : Role → Option Descriptor
  | .recording d _ => some d
  | .stored d => some d
  | _ => none

/-- The region has the role RING of channel `c`. -/
def Role.isRingOf (c : Chan) : Role → Bool
  | .ring c' => decide (c' = c)
  | _ => false

/-- The region has the role RECORDING of channel `c`. -/
def Role.isRecordingOf (c : Chan) : Role → Bool
  | .recording d _ => decide (d.chan = c)
  | _ => false

def Role.isRecording : Role → Bool
  | .recording _ _ => true
  | _ => false

def Role.isStored : Role → Bool
  | .stored _ => true
  | _ => false

def Role.isFree : Role → Bool
  | .free => true
  | _ => false

def Role.isRing : Role → Bool
  | .ring _ => true
  | _ => false

/-- The lowest-numbered region with a property. -/
def Capture.find (k : Capture) (p : Role → Bool) : Option (Fin 16) :=
  (List.finRange 16).find? (fun i => p k.regions[i])

/-- The ring region of a channel. -/
def Capture.ringRegion (k : Capture) (c : Chan) : Option (Fin 16) := k.find (Role.isRingOf c)

/-- The recording of a channel: its region, descriptor and tail remaining. -/
def Capture.recording (k : Capture) (c : Chan) : Option (Fin 16 × Descriptor × Option Nat) :=
  match k.find (Role.isRecordingOf c) with
  | some i =>
    match k.regions[i] with
    | .recording d tail => some (i, d, tail)
    | _ => none
  | none => none

/-- The region of the capture with an id. -/
def Capture.findId (k : Capture) (id : Nat) : Option (Fin 16) :=
  k.find (fun r => match r.descriptor with
    | some d => decide (d.id = id)
    | none => false)

/-- The descriptors of the captures held. -/
def Capture.held (k : Capture) : List Descriptor := k.regions.toList.filterMap Role.descriptor

/-- How many regions have a property. -/
def Capture.count (k : Capture) (p : Role → Bool) : Nat := k.regions.toList.countP p

/-- The id after `n`, with 1 after 65,535 (R133). -/
def idAfter (n : Nat) : Nat := if n < 65535 then n + 1 else 1

/-- The first id from `n` on that no held capture has. Seventeen tries suffice for sixteen regions (R133). -/
def Capture.freeId (k : Capture) : Nat → Nat → Nat
  | 0, n => n
  | fuel + 1, n => if k.held.any (fun d => decide (d.id = n)) then k.freeId fuel (idAfter n) else n

/-- A younger capture moves up one place in age order (R133). -/
def Role.younger (age : Nat) : Role → Role
  | .recording d tail => .recording (if age < d.age then { d with age := d.age - 1 } else d) tail
  | .stored d => .stored (if age < d.age then { d with age := d.age - 1 } else d)
  | r => r

/-- A capture becomes FREE: its descriptor goes and the younger ones move up (R133, R142). -/
def Capture.release (k : Capture) (i : Fin 16) (d : Descriptor) : Capture :=
  { k with regions := (k.regions.set i .free).map (Role.younger d.age) }

/-- The oldest STORED capture that is not being read, with its region (R132). -/
def Capture.oldestStored (k : Capture) : Option (Fin 16 × Descriptor) :=
  (List.finRange 16).foldl (fun best i =>
    match k.regions[i] with
    | .stored d =>
      if (match k.job with
        | some j => decide (j.id = d.id)
        | none => false) then best
      else
        match best with
        | some (_, b) => if d.age < b.age then some (i, d) else best
        | none => some (i, d)
    | _ => best) none

/-- A capture becomes STORED, and CAPTURE_STORED is offered for its channel (R135). -/
def State.storeCapture (s : State) (i : Fin 16) (d : Descriptor) (stamp : Stamp) : State :=
  (s.setRole i (.stored d)).offer (some d.chan) stamp (.captureStored i d)

/-! ### An episode's opening and close -/

/-- Whether the blocks a capture takes over from a ring hold a dropped one (R131). -/
def Ring.droppedWithin (r : Ring) (n : Nat) : Bool :=
  match r.dropAge with
  | some a => decide (a < n)
  | none => false

/-- The descriptor a swap forms (R131). -/
def Capture.newDescriptor (k : Capture) (c : Chan) (episode : Nat) (start : Stamp) : Descriptor :=
  let ring := k.rings.get c
  let pre := min ring.fill k.preLength
  { id := k.freeId 17 k.nextId, chan := c, firstEpisode := episode, episodeCount := 1, trigger := start, pre
    length := pre, start := circular ring.head (Config.regionPositions - pre), truncated := false
    dropout := ring.droppedWithin pre, lentGap := false, age := k.held.length + 1 }

/-- The swap: channel `c`'s ring region becomes its recording and the FREE region `i` its ring, empty (R131). -/
def Capture.swap (k : Capture) (c : Chan) (ring i : Fin 16) (d : Descriptor) : Capture :=
  { k with
    regions := (k.regions.set ring (.recording d none)).set i (.ring c)
    rings := k.rings.set c .empty
    nextId := idAfter d.id }

/-- The swap made into region `i`, with the new capture's id (R131). -/
def State.startCapture (s : State) (c : Chan) (episode : Nat) (start : Stamp) (i : Fin 16) : State × Option Nat :=
  match s.capture.ringRegion c with
  | none => (s, none)
  | some ring =>
    let d := s.capture.newDescriptor c episode start
    ({ s with capture := s.capture.swap c ring i d }, some d.id)

/-- The capture controller is told of an episode opening, and gives the id of the capture that records it: a merge
(R130), a swap (R131), or the cases of R132. -/
def State.openCapture (s : State) (c : Chan) (episode : Nat) (start : Stamp) : State × Option Nat :=
  match s.capture.recording c with
  | some (i, d, _) =>
    (s.setRole i (.recording { d with episodeCount := bump 65535 d.episodeCount } none), some d.id)
  | none =>
    if s.capture.lend ≠ .owned then (s.offer (some c) start (.captureMissed episode .lent), none)
    else
      match s.capture.find Role.isFree with
      | some i => s.startCapture c episode start i
      | none =>
        if s.capture.protect then (s.offer (some c) start (.captureMissed episode .isProtected), none)
        else
          match s.capture.oldestStored with
          | some (i, d) =>
            State.startCapture
              (State.offer { s with capture := s.capture.release i d } (some c) start
                (.captureDiscarded d.id d.chan d.firstEpisode d.episodeCount episode))
              c episode start i
          | none => (s, none)

/-- Whether the capture step of channel `c` is still to be taken at the block end in progress. -/
def State.captureStepDue (s : State) (c : Chan) : Bool :=
  match s.blockWork with
  | some l => l.contains (.capture c)
  | none => false

/-- The close is taken at the block end whose block is the close block (R134). -/
def CloseReason.atBlockEnd : CloseReason → Bool
  | .released | .limitRemoved => true
  | _ => false

/-- The capture controller is told of an episode close: the tail begins, or the capture ends at once for RESET and for
a tail of 0 whose close block has been handled (R134, R135, R146). -/
def State.closeCapture (s : State) (c : Chan) (id : Option Nat) (reason : CloseReason) (stamp : Stamp) : State :=
  match s.capture.recording c with
  | some (i, d, none) =>
    if id ≠ some d.id then s
    else if reason = .reset then s.storeCapture i { d with truncated := true } stamp
    else if reason.atBlockEnd ∧ s.captureStepDue c then
      let s := s.setRole i (.recording d (some s.capture.tailLength))
      { s with capture := { s.capture with closeBlock := s.capture.closeBlock.set c true } }
    else if s.capture.tailLength = 0 then s.storeCapture i d stamp
    else s.setRole i (.recording d (some s.capture.tailLength))
  | _ => s

/-! ### Block work (R128) -/

/-- The capture block of channel `c` for the block that has ended (R125, R187). -/
def State.captureBlock (s : State) (c : Chan) : List Byte :=
  let r := s.results c
  captureBlockBytes r.gain r.overload (decide (0 < r.settlingSamples)) (decide (s.handed.classes.get c = .excluded))
    s.handed.report.named r.raw

/-- What a block does to the recording it is addressed to (R135). -/
inductive RecordingEnd where
  | goesOn | full | tailEnds
  deriving DecidableEq, Repr

/-- The tail remaining after the block that has ended: a close block is no tail block (R134, R135). -/
def Capture.tailAfter (k : Capture) (c : Chan) (tail : Option Nat) : Option Nat :=
  if k.closeBlock.get c then tail else tail.map (· - 1)

/-- The test of R135 on the recording of channel `c`. -/
def Capture.recordingEnd (k : Capture) (c : Chan) (d : Descriptor) (tail : Option Nat) : RecordingEnd :=
  if k.accepts = true ∧ Config.regionPositions ≤ d.length + 1 then .full
  else if k.tailAfter c tail = some 0 then .tailEnds
  else .goesOn

/-- The descriptor after the block that has ended: one block longer, or marked for a drop or a lend (R128, R137,
R145). -/
def Capture.recorded (k : Capture) (d : Descriptor) : Descriptor :=
  if k.accepts then { d with length := d.length + 1 }
  else if k.lend = .owned then { d with dropout := true }
  else { d with lentGap := true }

/-- A capture that becomes STORED by its length is TRUNCATED with an open episode or a tail still remaining
(R135). -/
def Capture.truncatedAtFull (k : Capture) (c : Chan) (tail : Option Nat) : Bool :=
  decide (k.tailAfter c tail ≠ some 0)

/-- A block addressed to a recording (R128, R135). -/
def State.recordBlock (s : State) (c : Chan) (i : Fin 16) (d : Descriptor) (tail : Option Nat) (bytes : List Byte) :
    State :=
  let k := s.capture
  let d' := k.recorded d
  let k' := if k.accepts then k.push ⟨i, circular d.start d.length, bytes⟩ else k
  let s := { s with capture := { k' with closeBlock := k.closeBlock.set c false } }
  match k.recordingEnd c d tail with
  | .full => s.storeCapture i { d' with truncated := d.truncated || k.truncatedAtFull c tail } s.handed.report.ended
  | .tailEnds => s.storeCapture i d' s.handed.report.ended
  | .goesOn => s.setRole i (.recording d' (k.tailAfter c tail))

/-- The dropout age after a block accepted for the ring (R129). -/
def Ring.agedDrop (r : Ring) : Option Nat :=
  match r.dropAge with
  | some a => if a + 1 < Config.regionPositions then some (a + 1) else none
  | none => none

/-- A ring after a block accepted for it (R128, R129). -/
def Ring.accepted (r : Ring) : Ring :=
  { head := circular r.head 1, fill := bump Config.regionPositions r.fill, dropAge := r.agedDrop }

/-- A block addressed to a ring (R128, R129, R137, R145). -/
def State.ringBlock (s : State) (c : Chan) (i : Fin 16) (bytes : List Byte) : State :=
  let k := s.capture
  let ring := k.rings.get c
  if k.accepts then
    { s with capture := { k.push ⟨i, ring.head, bytes⟩ with rings := k.rings.set c ring.accepted } }
  else if k.lend = .owned then s.setRing c { ring with dropAge := some 0 }
  else s

/-- The capture controller's block work for a channel (R128). -/
def State.captureStep (s : State) (c : Chan) : State :=
  match s.capture.recording c with
  | some (i, d, tail) => s.recordBlock c i d tail (s.captureBlock c)
  | none =>
    match s.capture.ringRegion c with
    | some i => s.ringBlock c i (s.captureBlock c)
    | none => s

/-- How the recording of channel `c` will end at its capture step. -/
def State.recordingEnds (s : State) (c : Chan) : RecordingEnd :=
  match s.capture.recording c with
  | some (_, d, tail) => s.capture.recordingEnd c d tail
  | none => .goesOn

/-! ### Rings and resets -/

/-- Every channel's ring restarts empty in the region it holds (R129, R145, R146). -/
def Capture.emptyRings (k : Capture) : Capture := { k with rings := .same .empty }

/-- Step 1 of a soft reset for one channel: a capture in its tail becomes STORED with TRUNCATED (R146). -/
def State.endTail (s : State) (c : Chan) : State :=
  match s.capture.recording c with
  | some (i, d, _) => s.storeCapture i { d with truncated := true } s.clock.now
  | none => s

/-- An entry of the write buffer is addressed to a ring: its region is one (R146, log entry 13). -/
def Capture.addressedToRing (k : Capture) (e : BufferEntry) : Bool := Role.isRing k.regions[e.region]

/-- The capture controller's soft reset after the RESET closes (R146). -/
def State.resetCapture (s : State) : State :=
  let s := Chan.all.foldl State.endTail s
  let k := s.capture
  { s with
    capture :=
      { k.emptyRings with buffer := k.buffer.filter (fun e => !k.addressedToRing e), closeBlock := .same false } }

end Sys2Proof.Machine
end

