-- ==== Sys2Proof/Machine/Monitor.lean ====
section
/-! DEFINITION. Chapter 6: thresholds, the budget test, the episode machine, peak events and the alert line. -/

namespace Sys2Proof.Machine

/-! ### Thresholds (R102) -/

/-- The budget of an interval with its warning threshold, when the Leq limit is present. -/
def budgetThreshold (p : Nat) (k : Int) (nNom : Nat) (limit : Option Int) : Option BudgetThreshold :=
  limit.map fun l => { limit := l, b := budgetOf k l nNom, warn := p * budgetOf k l nNom / 100 }

/-- Y and Yr, when the Lmax limit is present. -/
def lmaxThreshold (hysteresis : Nat) (k : Int) (limit : Option Int) : Option EpisodeThreshold :=
  limit.map fun l => { limit := l, y := episodeThreshold k l, yr := episodeThreshold k (l - hysteresis) }

/-- A, when the peak limit is present. -/
def peakThresholdOf (k : Int) (limit : Option Int) : Option PeakThreshold :=
  limit.map fun l => { limit := l, a := peakThreshold k l }

/-- The monitor's part of an opening, for a channel enabled in the new interval (R102). -/
def MonitorChan.openWith (cs : ChannelSettings) (limits : Limits) (nNom : Nat) (m : MonitorChan) : MonitorChan :=
  { m with
    budget := budgetThreshold cs.warnPercent cs.k nNom limits.leq
    lmax := lmaxThreshold cs.hysteresis cs.k limits.lmax
    peak := peakThresholdOf cs.k limits.peak
    warned := false, spent := false, releaseTime := cs.releaseTime, peaksOver := 0, episodesOpened := 0 }

/-- Every threshold becomes absent, and budget warned and budget spent become no (R102). -/
def MonitorChan.dropThresholds (m : MonitorChan) : MonitorChan :=
  { m with budget := none, lmax := none, peak := none, warned := false, spent := false }

/-- The monitor's channel after a soft reset, its episode already closed (R101, R115). -/
def MonitorChan.softReset (m : MonitorChan) : MonitorChan :=
  { m.dropThresholds with releaseTime := 0, peaksOver := 0, episodesOpened := 0, releaseCounter := 0, peakHoldOff := 0, peaksSuppressed := 0 }

/-! ### Budget (R104, R105) -/

/-- Budget used, in permille (R105). -/
def budgetUsed (budget : Option BudgetThreshold) (sum : Nat) : Nat :=
  match budget with
  | none => 0
  | some t =>
    if t.b = 0 then (if sum = 0 then 0 else 65535) else min 65535 (1000 * sum / t.b)

/-- The open interval's accumulators of a channel, when it is enabled in it. -/
def State.accOf (s : State) (c : Chan) : Option ChannelAcc :=
  match s.interval with
  | some iv => iv.accs.get c
  | none => none

/-- The Sum of a channel in the open interval. -/
def State.sumOf (s : State) (c : Chan) : Nat :=
  match s.accOf c with
  | some a => a.sum
  | none => 0

/-- The number of the open interval. -/
def State.intervalNumber (s : State) : Nat :=
  match s.interval with
  | some iv => iv.number
  | none => 0

/-- Whether the block of a channel is included in the measurement (R90). -/
def State.included (s : State) (c : Chan) : Bool := decide (s.handed.classes.get c ≠ .excluded)

/-- Budget warned becomes yes and BUDGET_WARN is offered (R104, step 1). -/
def State.warnStep (s : State) (c : Chan) (t : BudgetThreshold) (sum : Nat) : State :=
  if t.warn < sum ∧ (s.monitor.get c).warned = false then
    (s.setMonitor c { s.monitor.get c with warned := true }).offer (some c) s.handed.report.ended
      (.budgetWarn (budgetUsed (some t) sum) t.limit s.intervalNumber)
  else s

/-- Budget spent becomes yes and BUDGET_SPENT is offered (R104, step 2). -/
def State.spendStep (s : State) (c : Chan) (t : BudgetThreshold) (sum : Nat) : State :=
  if t.b < sum ∧ (s.monitor.get c).spent = false then
    (s.setMonitor c { s.monitor.get c with spent := true }).offer (some c) s.handed.report.ended
      (.budgetSpent (budgetUsed (some t) sum) t.limit s.intervalNumber)
  else s

/-- The budget test of a channel's block (R104). -/
def State.budgetStep (s : State) (c : Chan) : State :=
  match (s.monitor.get c).budget with
  | none => s
  | some t => if s.included c then (s.warnStep c t (s.sumOf c)).spendStep c t (s.sumOf c) else s

/-! ### Peak events (R117) -/

/-- The peak hold-off step and peak test (R117). -/
def State.peakStep (s : State) (c : Chan) : State :=
  let m := s.monitor.get c
  let m := { m with peakHoldOff := m.peakHoldOff - 1 }
  match m.peak with
  | none => s.setMonitor c m
  | some t =>
    if s.included c = true ∧ t.a < (s.results c).peak then
      let m := { m with peaksOver := bump max32 m.peaksOver }
      if m.peakHoldOff = 0 then
        (s.setMonitor c { m with peakHoldOff := Config.peakHoldOff, peaksSuppressed := 0 }).offer (some c)
          s.handed.report.ended (.peak (peakLevel (s.k c) (s.results c).peak) t.limit m.peaksSuppressed)
      else s.setMonitor c { m with peaksSuppressed := bump 65535 m.peaksSuppressed }
    else s.setMonitor c m

/-! ### Episodes (R107 to R116) -/

/-- The complete record of an episode at its close (R110, R111). -/
def Episode.complete (e : Episode) (c : Chan) (k : Int) (stop : Stamp) (reason : CloseReason) : EpisodeRecord :=
  { number := e.number, chan := c, start := e.start, stop, duration := e.duration, maxLevel := e.maxLevel
    maxTime := e.maxTime, sel := soundExposure k e.q, captureId := e.captureId, reason }

/-- The machine of a channel returns to IDLE (R110, step 4). -/
def MonitorChan.toIdle (m : MonitorChan) : MonitorChan :=
  { m with phase := .idle, releaseCounter := 0, episode := none }

/-- An open episode of a channel closes; on a channel in IDLE nothing happens (R110, R116). -/
def State.closeEpisode (s : State) (c : Chan) (reason : CloseReason) (stamp : Stamp) : State :=
  match (s.monitor.get c).episode with
  | none => s
  | some e =>
    let s := s.offer (some c) stamp (.episodeClosed (e.complete c (s.k c) stamp reason))
    let s := s.closeCapture c e.captureId reason stamp
    s.setMonitor c (s.monitor.get c).toIdle

/-- The F level of the block of a channel that has ended (R44). -/
def State.blockFLevel (s : State) (c : Chan) : Int := detectorLevel (s.k c) (s.results c).yF

/-- A considered block (R107). -/
def State.considered (s : State) (c : Chan) : Bool :=
  s.included c && (s.results c).fSettled && (s.monitor.get c).lmax.isSome

/-- An episode opens on a channel (R108). -/
def State.openEpisode (s : State) (c : Chan) (limit : Int) : State :=
  let number := s.nextEpisode
  let now := s.handed.report.ended
  let e : Episode :=
    { number, start := now, duration := 1, q := (s.results c).energy, maxLevel := s.blockFLevel c, maxTime := now
      captureId := none }
  let m := s.monitor.get c
  let s := { s with nextEpisode := next32 number }
  let s := s.setMonitor c
    { m with phase := .opened, episode := some e, episodesOpened := bump max32 m.episodesOpened }
  let s := s.offer (some c) now (.episodeOpen number e.maxLevel limit)
  let r := s.openCapture c number now
  r.1.setMonitor c { r.1.monitor.get c with episode := some { e with captureId := r.2 } }

/-- The episode record after a block of its channel: duration and energy for every block, the maximum for a considered
one (R111). -/
def Episode.addBlock (e : Episode) (energy : Nat) (considered : Bool) (fLevel : Int) (now : Stamp) : Episode :=
  let e := { e with duration := bump max32 e.duration, q := addUpTo (48000 * 2 ^ 46) e.q energy }
  if considered = true ∧ e.maxLevel < fLevel then { e with maxLevel := fLevel, maxTime := now } else e

/-- The row of R109 for a considered block. -/
def MonitorChan.moveOn (yF yr : Nat) (m : MonitorChan) : MonitorChan :=
  match m.phase with
  | .idle => m
  | .opened => if yF ≤ yr then { m with phase := .releasing, releaseCounter := 1 } else m
  | .releasing =>
    if yF ≤ yr then { m with releaseCounter := m.releaseCounter + 1 }
    else { m with phase := .opened, releaseCounter := 0 }

/-- The release counter has reached the release time (R109). -/
def MonitorChan.released (m : MonitorChan) : Bool :=
  decide (m.phase = .releasing) && decide (m.releaseTime ≤ m.releaseCounter)

/-- The monitor's channel after the block of an open episode, before any release (R109, R111). -/
def State.afterBlock (s : State) (c : Chan) (e : Episode) : MonitorChan :=
  let m := s.monitor.get c
  let m := { m with episode := some (e.addBlock (s.results c).energy (s.considered c) (s.blockFLevel c) s.handed.report.ended) }
  match m.lmax with
  | some t => if s.considered c then m.moveOn (s.results c).yF t.yr else m
  | none => m

/-- Whether the block that has ended releases the episode of a channel (R109). -/
def State.episodeReleases (s : State) (c : Chan) : Bool :=
  match (s.monitor.get c).episode with
  | some e => s.considered c && (s.afterBlock c e).released
  | none => false

/-- The episode step of a channel's block (R107 to R110). -/
def State.episodeStep (s : State) (c : Chan) : State :=
  match (s.monitor.get c).episode with
  | some e =>
    let s' := s.setMonitor c (s.afterBlock c e)
    if s.episodeReleases c then s'.closeEpisode c .released s.handed.report.ended else s'
  | none =>
    match (s.monitor.get c).lmax with
    | some t => if s.considered c = true ∧ t.y < (s.results c).yF then s.openEpisode c t.limit else s
    | none => s

/-- The channels with an open episode, in channel order. -/
def State.openEpisodes (s : State) : List Chan := Chan.all.filter fun c => (s.monitor.get c).episode.isSome

/-! ### The alert line (R119 to R123) -/

/-- The alert condition (R119). -/
inductive AlertCondition where
  | none | episode | spent
  deriving DecidableEq, Repr

def AlertCondition.code : AlertCondition → Nat
  | .none => 0
  | .episode => 1
  | .spent => 2

/-- The alert condition formed from the state of the monitor (R119). -/
def alertCondition (m : Quad MonitorChan) : AlertCondition :=
  if m.toList.any (·.spent) then .spent
  else if m.toList.any (fun x => decide (x.phase ≠ .idle)) then .episode
  else .none

/-- The flash counter has reached the half-period: the block end is a toggle point (R120). -/
def AlertLine.atToggle (a : AlertLine) : Bool := decide (a.flashCounter = a.halfPeriod)

/-- The output at a toggle point, by the mode in force (R121). -/
def AlertLine.toggleOutput (cond : AlertCondition) (a : AlertLine) : Bool :=
  match a.mode, cond with
  | .off, _ => false
  | .steady, c => decide (c ≠ .none)
  | .flash, .spent => true
  | .flash, .episode => !a.high
  | .flash, .none => false

/-- The output at a block end that is no toggle point (R121). -/
def AlertLine.plainOutput (cond : AlertCondition) (a : AlertLine) : Bool :=
  match a.mode with
  | .off => false
  | .steady => decide (cond ≠ .none)
  | .flash => a.high

/-- A toggle point: the counter returns to 1, a pending setting comes into force, and the output is set (R120 to
R122). -/
def AlertLine.toggle (cond : AlertCondition) (a : AlertLine) : AlertLine :=
  let a := { a with flashCounter := 1 }
  let a :=
    match a.pendingSetting with
    | some (mode, h) => { a with mode, halfPeriod := h, pendingSetting := none }
    | none => a
  { a with high := a.toggleOutput cond }

/-- The alert line's block-end step (R121). -/
def AlertLine.blockEnd (cond : AlertCondition) (a : AlertLine) : AlertLine :=
  if a.atToggle then a.toggle cond
  else { a with flashCounter := a.flashCounter + 1, high := a.plainOutput cond }

/-- The alert line's step of the part. -/
def State.alertStep (s : State) : State := { s with alert := s.alert.blockEnd (alertCondition s.monitor) }

end Sys2Proof.Machine
end

