-- ==== Sys2Proof/Machine/Range.lean ====
section
/-! DEFINITION. Chapter 1: the range controller's sample step, its block-end step, gain changes and the effects of a
commit. -/

namespace Sys2Proof.Machine

/-- The code of a gain step (R9). -/
def GainCodes.code (t : GainCodes) : Nat → Nat
  | 0 => t.step0
  | 1 => t.step1
  | 2 => t.step2
  | 3 => t.step3
  | _ => t.step4

/-- A raw sample at or above the overload level (R2). -/
def isOverload (x : Int) : Bool := Config.overloadLevel ≤ x.natAbs

/-- The window restarts (R14, R15). -/
def RangeCtl.restartWindow (r : RangeCtl) : RangeCtl := { r with windowCounter := 0, windowPeak := 0 }

/-- The effects of a gain change to step `g`, except the count (R14). -/
def RangeCtl.changeTo (set : RangeSettings) (codes : GainCodes) (g : Nat) (r : RangeCtl) : RangeCtl :=
  { r.restartWindow with gain := g, lines := codes.code g, settling := set.settle, holdOff := set.holdOff }

/-- A gain change made within a block or at its end, counted in the block summary (R14). -/
def RangeCtl.step (set : RangeSettings) (codes : GainCodes) (g : Nat) (r : RangeCtl) : RangeCtl :=
  { r.changeTo set codes g with gainChanges := r.gainChanges + 1 }

/-- Whether the sample that arrives next is a settling sample (R10). -/
def RangeCtl.isSettling (r : RangeCtl) : Bool := 0 < r.settling

/-- An immediate step down is made for a sample of magnitude `m` (R11). -/
def RangeCtl.stepsAtOnce (set : RangeSettings) (m : Nat) (r : RangeCtl) : Bool :=
  decide (set.tImm < m) && decide (r.holdOff = 0) && decide (set.gMin < r.gain)

/-- The range controller takes a sample: overload mark (R2), settling (R10), window peak and immediate step (R11). -/
def RangeCtl.sample (set : RangeSettings) (codes : GainCodes) (x : Int) (r : RangeCtl) : RangeCtl :=
  let r := { r with overload := r.overload || isOverload x }
  if r.isSettling then { r with settling := r.settling - 1, settlingSamples := r.settlingSamples + 1 }
  else if r.frozen then r
  else
    let r := { r with windowPeak := max r.windowPeak x.natAbs }
    if r.stepsAtOnce set x.natAbs then r.step set codes (r.gain - 1) else r

/-- The window decision (R13), made with the hold-off as it stands. -/
def RangeCtl.windowDecision (set : RangeSettings) (codes : GainCodes) (r : RangeCtl) : RangeCtl :=
  if 0 < r.holdOff then r
  else if set.tHi < r.windowPeak ∧ set.gMin < r.gain then r.step set codes (r.gain - 1)
  else if r.windowPeak < set.tLo ∧ r.gain < set.gMax then r.step set codes (r.gain + 1)
  else r

/-- Step 1 of the block end: the hold-off counter decreases (R12). -/
def RangeCtl.countHoldOff (r : RangeCtl) : RangeCtl := { r with holdOff := r.holdOff - 1 }

/-- Whether a window of the controller ends at the block end (R12, step 3). -/
def RangeCtl.windowEnds (set : RangeSettings) (r : RangeCtl) : Bool :=
  !r.frozen && decide (set.window ≤ r.windowCounter + 1)

/-- The end of a window: the decision, and the window restarts (R12, R13). -/
def RangeCtl.endWindow (set : RangeSettings) (codes : GainCodes) (r : RangeCtl) : RangeCtl :=
  (r.windowDecision set codes).restartWindow

/-- The block-end steps of R12 but for the handing of the summary. -/
def RangeCtl.blockEnd (set : RangeSettings) (codes : GainCodes) (r : RangeCtl) : RangeCtl :=
  let r := r.countHoldOff
  if r.frozen then r
  else if r.windowEnds set then r.endWindow set codes
  else { r with windowCounter := r.windowCounter + 1 }

/-- The freeze of a check (R15). -/
def RangeCtl.freeze (r : RangeCtl) : RangeCtl := { r.restartWindow with frozen := true }

/-- The freeze is lifted (R15). -/
def RangeCtl.thaw (r : RangeCtl) : RangeCtl := { r with frozen := false }

/-- The gain step clamped into a range (R16, step 1). -/
def clampGain (set : RangeSettings) (g : Nat) : Nat := max set.gMin (min set.gMax g)

/-- How many gain changes a clamp makes (R16, step 1). -/
def RangeCtl.clampCount (set : RangeSettings) (r : RangeCtl) : Nat :=
  (clampGain set r.gain - r.gain) + (r.gain - clampGain set r.gain)

/-- The range controller takes new active settings and a new gain-code table (R16). -/
def RangeCtl.commit (oldSet newSet : RangeSettings) (newCodes : GainCodes) (r : RangeCtl) : RangeCtl :=
  let g := clampGain newSet r.gain
  let r :=
    if g ≠ r.gain then r.changeTo newSet newCodes g
    else if newCodes.code r.gain ≠ r.lines then { r with lines := newCodes.code r.gain, settling := newSet.settle }
    else r
  if oldSet ≠ newSet then
    { r.restartWindow with holdOff := min newSet.holdOff r.holdOff, settling := min newSet.settle r.settling }
  else r

end Sys2Proof.Machine
end

