-- ==== Sys2Proof/Machine/Weighting.lean ====
section
/-! DEFINITION. Chapter 2: normalisation, the two filter paths, block sums, the detectors and their clearing. -/

namespace Sys2Proof.Machine

/-- The weighting set of a number: W0 is flat and fixed (R25). -/
def Settings.weighting (s : Settings) : Nat → WeightingSet
  | 0 => .flat
  | 1 => s.w1
  | 2 => s.w2
  | _ => s.w3

/-- The filter a channel's main path runs on (R25). -/
def Settings.mainFilter (s : Settings) (c : Chan) : WeightingSet := s.weighting (s.chan.get c).mainSet

/-- The filter a channel's peak path runs on (R25). -/
def Settings.peakFilter (s : Settings) (c : Chan) : WeightingSet := s.weighting (s.chan.get c).peakSet

/-- A raw or test sample normalised at gain step `g` (R22, R24). -/
def normalise (g : Nat) (x : Int) : Int := x * 4 ^ (4 - g)

/-- floor((sum + 2^27) / 2^28), the unclamped output of a section (R26, steps 1 and 2). -/
def sectionSum (c : Coeffs) (st : SectionState) (x0 : Int) : Int :=
  (c.b0 * x0 + c.b1 * st.x1 + c.b2 * st.x2 - c.a1 * st.y1 - c.a2 * st.y2 + 2 ^ 27) / 2 ^ 28

/-- Clamping into the signed 32-bit range (R26, step 3). -/
def saturate32 (x : Int) : Int := max (-2 ^ 31) (min (2 ^ 31 - 1) x)

/-- The output of a section (R26). -/
def sectionOut (c : Coeffs) (st : SectionState) (x0 : Int) : Int := saturate32 (sectionSum c st x0)

/-- 1 when the section saturates (R26, step 3). -/
def sectionSaturates (c : Coeffs) (st : SectionState) (x0 : Int) : Nat :=
  if sectionOut c st x0 = sectionSum c st x0 then 0 else 1

/-- The section's state moves on (R26, step 4). -/
def sectionNext (c : Coeffs) (st : SectionState) (x0 : Int) : SectionState :=
  ⟨x0, st.x1, sectionOut c st x0, st.y1⟩

/-- The output of a path (R27). -/
def pathOut (w : WeightingSet) (p : FilterPath) (a : Int) : Int :=
  sectionOut w.third p.third (sectionOut w.second p.second (sectionOut w.first p.first a))

/-- The saturations of a path's three sections for one sample (R27). -/
def pathSaturations (w : WeightingSet) (p : FilterPath) (a : Int) : Nat :=
  sectionSaturates w.first p.first a
    + sectionSaturates w.second p.second (sectionOut w.first p.first a)
    + sectionSaturates w.third p.third (sectionOut w.second p.second (sectionOut w.first p.first a))

/-- A path's section states after one sample (R27). -/
def pathNext (w : WeightingSet) (p : FilterPath) (a : Int) : FilterPath :=
  ⟨sectionNext w.first p.first a,
    sectionNext w.second p.second (sectionOut w.first p.first a),
    sectionNext w.third p.third (sectionOut w.second p.second (sectionOut w.first p.first a))⟩

/-- The square of a main-path or normalised sample, floor(w² / 2^16) (R30, R32). -/
def squareOf (w : Int) : Nat := w.natAbs ^ 2 / 2 ^ 16

/-- The normalised sample the paths take (R22, R23): the held value for a settling sample. `v` is the raw or test
value and `g` the gain step it is normalised with. -/
def WeightUnit.normalised (u : WeightUnit) (settling : Bool) (g : Nat) (v : Int) : Int :=
  if settling then u.lastValid else normalise g v

/-- The unit takes a normalised sample `a` and the raw sample `x` it stands for (R23, R27, R30, R31, R32). -/
def WeightUnit.take (main peak : WeightingSet) (internal : Bool) (a x : Int) (u : WeightUnit) : WeightUnit :=
  { u with
    lastValid := a
    main := pathNext main u.main a
    peak := pathNext peak u.peak a
    energy := u.energy + squareOf (pathOut main u.main a)
    blockPeak := max u.blockPeak (pathOut peak u.peak a).natAbs
    saturations := u.saturations + pathSaturations main u.main a + pathSaturations peak u.peak a
    checkEnergy := if internal then u.checkEnergy + squareOf a else u.checkEnergy
    raw := u.raw ++ [x] }

/-- y + floor((E − y) / d) (R33). -/
def detectorStep (d : Nat) (e y : Nat) : Nat := ((y : Int) + ((e : Int) - y) / d).toNat

/-- The detectors and their settled counters are updated from the block's energy (R33, R34). -/
def WeightUnit.update (u : WeightUnit) : WeightUnit :=
  { u with
    yF := detectorStep 128 u.energy u.yF
    yS := detectorStep 1024 u.energy u.yS
    fCount := bump Config.fSettledAt u.fCount
    sCount := bump Config.sSettledAt u.sCount }

/-- The block results the unit hands, with the range controller's summary (R37). DESIGN CHOICE (log entry 24): of a
block in which an INTERNAL check ended before the block end, the check energy handed is the sum of the samples taken
while the check ran. -/
def blockResultsOf (u : WeightUnit) (r : RangeCtl) : BlockResults :=
  { energy := u.energy, peak := u.blockPeak, yF := u.yF, yS := u.yS
    fSettled := decide (u.fCount = Config.fSettledAt), sSettled := decide (u.sCount = Config.sSettledAt)
    saturations := u.saturations, checkEnergy := u.checkEnergy, raw := u.raw
    overload := r.overload, settlingSamples := r.settlingSamples, gainChanges := r.gainChanges, gain := r.gain }

/-- The block sums so far return to 0 (R37, step 3). -/
def WeightUnit.clearSums (u : WeightUnit) : WeightUnit :=
  { u with energy := 0, blockPeak := 0, saturations := 0, checkEnergy := 0, raw := [] }

/-- The block summary starts afresh for the next block (R3). -/
def RangeCtl.clearSummary (r : RangeCtl) : RangeCtl :=
  { r with overload := false, settlingSamples := 0, gainChanges := 0 }

/-- The unit's block end: update, hand, clear (R37). -/
def State.handBlock (s : State) (c : Chan) : State :=
  let u := (s.unit.get c).update
  let r := s.range.get c
  ((s.setResults c (blockResultsOf u r)).setUnit c u.clearSums).setRange c r.clearSummary

/-- The detectors are cleared (R35). -/
def WeightUnit.clearDetectors (u : WeightUnit) : WeightUnit := { u with yF := 0, yS := 0, fCount := 0, sCount := 0 }

/-- The clearing at the end of a check: detectors and the sections of both paths (R35). -/
def WeightUnit.clearAll (u : WeightUnit) : WeightUnit := { u.clearDetectors with main := .rest, peak := .rest }

/-- A path's filter has changed (R29): its set number differs, or that set's coefficients do. -/
def filterChanged (old new : Settings) (oldSet newSet : Nat) : Bool :=
  decide (oldSet ≠ newSet) || decide (old.weighting oldSet ≠ new.weighting newSet)

/-- The main-path filter of a channel changes between two copies (R29). -/
def mainChanged (old new : Settings) (c : Chan) : Bool :=
  filterChanged old new (old.chan.get c).mainSet (new.chan.get c).mainSet

/-- The peak-path filter of a channel changes between two copies (R29). -/
def peakChanged (old new : Settings) (c : Chan) : Bool :=
  filterChanged old new (old.chan.get c).peakSet (new.chan.get c).peakSet

/-- The unit's part of a commit (R29). -/
def WeightUnit.commit (mainChanged peakChanged : Bool) (u : WeightUnit) : WeightUnit :=
  let u := if mainChanged then { u.clearDetectors with main := .rest } else u
  if peakChanged then { u with peak := .rest } else u

end Sys2Proof.Machine
end

