-- ==== Sys2Proof/Machine/Check.lean ====
section
/-! DEFINITION. Chapter 8: the check engine: the test signal, the block work, the result, the staged adjustment and the
ends of a check. -/

namespace Sys2Proof.Machine

/-- The running check, if it runs on channel `c`. -/
def CheckEngine.on (e : CheckEngine) (c : Chan) : Option CheckParams :=
  match e.phase, e.params with
  | .idle, _ => none
  | _, some p => if p.chan = c then some p else none
  | _, none => none

/-- A check of source INTERNAL runs on channel `c` (R24, R32). -/
def CheckEngine.internalOn (e : CheckEngine) (c : Chan) : Option CheckParams :=
  match e.on c with
  | some p => if p.source = .internal then some p else none
  | none => none

/-- The square wave of an INTERNAL check: +A for frames 0 to 23 of the block, −A for 24 to 47 (R150). -/
def testValue (amplitude frame : Nat) : Int := if frame < 24 then amplitude else -(amplitude : Int)

/-- s_exp, the square of a test sample (R150). -/
def testSquare (amplitude gain : Nat) : Nat := squareOf (normalise gain amplitude)

/-- Whether two copies differ in a channel's K or in the filter of either path (R157). -/
def checkDisturbed (old new : Settings) (c : Chan) : Bool :=
  decide ((old.chan.get c).k ≠ (new.chan.get c).k) || mainChanged old new c || peakChanged old new c

/-- The measured level, the expected level and the deviation, none being NOSIG (R152). -/
def CheckParams.measure (p : CheckParams) (k : Int) (sum : Nat) : Int × Int × Option Int :=
  let n := 48 * p.measureTime
  let measured := level k sum n
  let expected :=
    match p.source with
    | .calibrator => p.expected
    | .internal => level k (n * testSquare p.amplitude p.gain) n
  (measured, expected, if measured = nosig then none else some (measured - expected))

/-- PASS or FAIL (R152). -/
def CheckParams.verdict (p : CheckParams) (deviation : Option Int) : CheckEnd :=
  match deviation with
  | some d => if d.natAbs ≤ p.tolerance then .pass else .fail
  | none => .fail

/-- The outcome of the staged calibration adjustment: the first condition that applies (R153). -/
def CheckParams.adjustment (p : CheckParams) (commitPending : Bool) (k : Int) (deviation : Option Int) : Adjustment :=
  if p.adjust = false then .notAsked
  else if p.source = .internal then .notCalibrator
  else
    match deviation with
    | none => .noSignal
    | some d =>
      if 300 < d.natAbs then .outOfWindow
      else if commitPending then .commitPending
      else if k - d < -10000 ∨ 15000 < k - d then .kRange
      else .made

/-- The staged K of a channel is replaced (R153). -/
def State.stageK (s : State) (c : Chan) (k : Int) : State :=
  { s with
    store :=
      { s.store with
        staged := { s.store.staged with chan := s.store.staged.chan.set c { s.store.staged.chan.get c with k } } } }

/-- How a check ends: its result with the levels, which only PASS and FAIL carry (R154). -/
structure Ending where
  result : CheckEnd
  measured : Int
  expected : Int
  deviation : Option Int
  deriving DecidableEq, Repr

/-- An end other than PASS and FAIL carries NOSIG for every level (R154). -/
def Ending.cut (result : CheckEnd) : Ending := ⟨result, nosig, nosig, none⟩

/-- The adjustment outcome of an ending: NOT_COMPLETED unless a result was formed (R153). -/
def Ending.adjustment (e : Ending) (p : CheckParams) (commitPending : Bool) (k : Int) : Adjustment :=
  match e.result with
  | .pass | .fail => p.adjustment commitPending k e.deviation
  | _ => .notCompleted

/-- Steps 2 to 4 of a check's end on its channel: the freeze is lifted, detectors and paths are cleared (R154); the
substitution stops with the check state. -/
def State.releaseChannel (s : State) (c : Chan) : State :=
  (s.setRange c (s.range.get c).thaw).setUnit c (s.unit.get c).clearAll

/-- Step 6: with outcome MADE the staged K becomes the active K less the deviation (R153). -/
def State.adjustK (s : State) (c : Chan) (outcome : Adjustment) (deviation : Option Int) : State :=
  match outcome, deviation with
  | .made, some d => s.stageK c (s.k c - d)
  | _, _ => s

/-- The result record (R154). -/
def State.checkRecord (s : State) (p : CheckParams) (e : Ending) (outcome : Adjustment) (measuredBlocks : Nat) :
    CheckRecord :=
  { chan := p.chan, source := p.source, result := e.result, measured := e.measured, expected := e.expected
    deviation := e.deviation, tolerance := p.tolerance, measureTime := p.measureTime
    blocksMeasured := measuredBlocks, adjustment := outcome, stagedK := (s.store.staged.chan.get p.chan).k }

/-- The blocks measured so far: the counter in COLLECTING, 0 in SETTLING (R154). -/
def CheckEngine.measuredBlocks (e : CheckEngine) : Nat :=
  match e.phase with
  | .collecting => e.counter
  | _ => 0

/-- A check ends (R154). With no check running nothing happens. `counted` is the blocks measured. -/
def State.endCheck (s : State) (e : Ending) (counted : Nat) (stamp : Stamp) : State :=
  match s.check.phase, s.check.params with
  | .idle, _ => s
  | _, none => s
  | _, some p =>
    let outcome := e.adjustment p s.store.commitPending (s.k p.chan)
    let s := s.releaseChannel p.chan
    let s := s.adjustK p.chan outcome e.deviation
    let r := s.checkRecord p e outcome counted
    State.offer { s with check := { phase := .idle, params := none, counter := 0, sum := 0, last := some r } }
      (some p.chan) stamp (.checkDone r)

/-- A check is cut short (R155 to R158). -/
def State.cutCheck (s : State) (result : CheckEnd) (stamp : Stamp) : State :=
  s.endCheck (.cut result) s.check.measuredBlocks stamp

/-- The result is formed from a check sum and the check ends with it (R152, R154). -/
def State.finishCheck (s : State) (p : CheckParams) (sum counted : Nat) (stamp : Stamp) : State :=
  let m := p.measure (s.k p.chan) sum
  s.endCheck ⟨p.verdict m.2.2, m.1, m.2.1, m.2.2⟩ counted stamp

/-- The energy a block adds to the check sum (R151, step 3). -/
def CheckParams.measuredEnergy (p : CheckParams) (r : BlockResults) : Nat :=
  match p.source with
  | .calibrator => r.energy
  | .internal => r.checkEnergy

/-- What the engine's block work comes to at a block end (R151). -/
inductive CheckStep where
  | idle | overload | settles | settled | collects | completes
  deriving DecidableEq, Repr

/-- Which row of R151 the block that has ended takes. -/
def State.checkStepKind (s : State) : CheckStep :=
  match s.check.phase, s.check.params with
  | .idle, _ => .idle
  | _, none => .idle
  | .settling, some p =>
    if (s.results p.chan).overload then .overload
    else if Config.settlingBlocks ≤ s.check.counter + 1 then .settled
    else .settles
  | .collecting, some p =>
    if (s.results p.chan).overload then .overload
    else if p.measureTime ≤ s.check.counter + 1 then .completes
    else .collects

/-- The check sum with the block that has ended added (R151). -/
def State.collected (s : State) (p : CheckParams) : Nat := s.check.sum + p.measuredEnergy (s.results p.chan)

/-- The engine's block work (R151). -/
def State.engineStep (s : State) : State :=
  match s.checkStepKind, s.check.params with
  | .overload, _ => s.cutCheck .overload s.handed.report.ended
  | .settles, _ => { s with check := { s.check with counter := s.check.counter + 1 } }
  | .settled, _ => { s with check := { s.check with phase := .collecting, counter := 0, sum := 0 } }
  | .collects, some p => { s with check := { s.check with counter := s.check.counter + 1, sum := s.collected p } }
  | .completes, some p => s.finishCheck p (s.collected p) (s.check.counter + 1) s.handed.report.ended
  | _, _ => s

/-- The check begins (R149). -/
def State.beginCheck (s : State) (p : CheckParams) : State :=
  let s :=
    { s with
      check := { s.check with phase := .settling, params := some p, counter := 0, sum := 0 }
      acc := { s.acc with checkInBlock := s.acc.checkInBlock.set p.chan true } }
  let s := s.closeEpisode p.chan .check s.clock.now
  s.setRange p.chan (s.range.get p.chan).freeze

/-- The marks of R90 for the block that begins: a check runs on the channel. -/
def State.checkMarks (s : State) : Quad Bool := (Quad.same ()).mapWith fun c _ => (s.check.on c).isSome

end Sys2Proof.Machine
end

