-- ==== Sys2Proof/Machine/Commit.lean ====
section
/-! DEFINITION. Chapter 5, section 5.2: the application of a commit and what the owning blocks do at that instant. -/

namespace Sys2Proof.Machine

/-- How many gain changes the clamp of each channel's controller makes under new settings (R16, step 1). -/
def State.clampCounts (s : State) (new : Settings) : Quad Nat :=
  s.range.mapWith fun c r => r.clampCount (new.range.get c)

/-- The range controllers take the new active copy (R16). -/
def State.commitRanges (s : State) (old new : Settings) : State :=
  { s with
    range := s.range.mapWith fun c r => r.commit (old.range.get c) (new.range.get c) (new.codes.get c) }

/-- The weighting and detector units take the new active copy (R29). -/
def State.commitUnits (s : State) (old new : Settings) : State :=
  { s with unit := s.unit.mapWith fun c u => u.commit (mainChanged old new c) (peakChanged old new c) }

/-- The activity settings differ between two copies (R81). -/
def activityChanged (old new : Settings) : Bool :=
  decide (old.mode ≠ new.mode) || decide (old.polarityHigh ≠ new.polarityHigh)
    || decide (old.guardLength ≠ new.guardLength)

/-- Guard remaining is set to the new guard length when an activity setting changed (R81, R91). -/
def State.commitGuard (s : State) (old new : Settings) : State :=
  if activityChanged old new then { s with acc := { s.acc with guardRemaining := new.guardLength } } else s

/-- A running check whose channel's K or weighting changed ends with CONFIG_CHANGED (R157). -/
def State.commitCheck (s : State) (old new : Settings) (stamp : Stamp) : State :=
  match s.check.params with
  | some p => if checkDisturbed old new p.chan then s.cutCheck .configChanged stamp else s
  | none => s

/-- A commit is applied: the copy, CONFIG_APPLIED, and the owning blocks (R81). -/
def State.applyCommit (s : State) (atBoundary : Bool) (stamp : Stamp) : State :=
  let old := s.store.active
  let new := s.store.staged
  let s := { s with store := { s.store with active := new, commitPending := false } }
  let s := s.offer none stamp (.configApplied atBoundary)
  (((s.commitRanges old new).commitUnits old new).commitGuard old new).commitCheck old new stamp

/-- The carried mark and carried gain changes of a commit applied with no interval to open at once (R81). -/
def State.carryCommit (s : State) (counts : Quad Nat) : State :=
  { s with
    acc :=
      { s.acc with
        carriedConfig := true
        carriedGain := s.acc.carriedGain.mapWith fun c n => addUpTo max32 n (counts.get c) } }

/-- A commit applied at once in UNTIMED or HELD (R81). -/
def State.commitAtOnce (s : State) (stamp : Stamp) : State :=
  let counts := s.clampCounts s.store.staged
  (s.applyCommit false stamp).carryCommit counts

end Sys2Proof.Machine
end

