-- ==== Sys2Proof/Machine/Flags.lean ====
section
/-! DEFINITION. The flags of an interval record (R97, R186). -/

namespace Sys2Proof.Machine

/-- The flags of an interval record, before they are packed (R97). -/
structure RecordFlags where
  isPartial : Bool
  gap : Bool
  overload : Bool
  saturated : Bool
  fSettling : Bool
  check : Bool
  leqExceeded : Bool
  lmaxExceeded : Bool
  peakExceeded : Bool
  budgetWarned : Bool
  noEntry : Bool
  configApplied : Bool
  clockSet : Bool
  holdFollows : Bool
  deriving DecidableEq, Repr

/-- A reported level is greater than a limit that is present (R97). -/
def exceeds (limit : Option Int) (l : Int) : Bool :=
  match limit with
  | some lim => decide (lim < l)
  | none => false

/-- The flags field: bit 0 PARTIAL to bit 13 HOLD_FOLLOWS, bits 14 and 15 clear (R186). -/
def RecordFlags.pack (f : RecordFlags) : BitVec 16 :=
  BitVec.ofNat 16
    (f.isPartial.toNat + 2 * f.gap.toNat + 4 * f.overload.toNat + 8 * f.saturated.toNat + 16 * f.fSettling.toNat
      + 32 * f.check.toNat + 64 * f.leqExceeded.toNat + 128 * f.lmaxExceeded.toNat + 256 * f.peakExceeded.toNat
      + 512 * f.budgetWarned.toNat + 1024 * f.noEntry.toNat + 2048 * f.configApplied.toNat
      + 4096 * f.clockSet.toNat + 8192 * f.holdFollows.toNat)

end Sys2Proof.Machine
end

