-- ==== Sys2Proof/Machine/Interval.lean ====
section
/-! DEFINITION. Chapter 5: block classification, the accumulators, interval records, and the boundary operation. -/

namespace Sys2Proof.Machine

/-! ### Classification (R90, R91, R92) -/

/-- The guard as the block's ACT sample leaves it before it is counted (R91, step 1). -/
def guardAfterSample (guardLength remaining : Nat) (prev : Option Bool) (sample : Bool) : Nat :=
  match prev with
  | some p => if p ≠ sample then guardLength else remaining
  | none => remaining

/-- The works are active at a level of ACT (R78). -/
def atActiveLevel (polarityHigh sample : Bool) : Bool := decide (sample = polarityHigh)

/-- The class of an included block (R91). -/
def includedClass (mode : ActivityMode) (polarityHigh guarded sample : Bool) : BlockClass :=
  match mode with
  | .off => .active
  | .strike => .active
  | .gate => if guarded then .transition else if atActiveLevel polarityHigh sample then .active else .quiet

/-- The block is a strike (R92). -/
def isStrike (mode : ActivityMode) (polarityHigh : Bool) (prev : Option Bool) (sample : Bool) : Bool :=
  decide (mode = .strike) && atActiveLevel polarityHigh sample
    && match prev with
      | some p => !atActiveLevel polarityHigh p
      | none => false

/-- The accumulator's classification of the block that has ended (R73 step 1, R90 to R92). -/
def State.classifyStep (s : State) : State :=
  let a := s.active
  let sample := s.port.actSample
  let g := guardAfterSample a.guardLength s.acc.guardRemaining s.acc.prevAct sample
  let cls := includedClass a.mode a.polarityHigh (decide (0 < g)) sample
  { s with
    handed :=
      { s.handed with
        classes := s.acc.checkInBlock.mapWith fun _ checked => if checked then .excluded else cls
        strike := isStrike a.mode a.polarityHigh s.acc.prevAct sample }
    acc := { s.acc with guardRemaining := g - 1, prevAct := some sample } }

/-! ### Accumulation (R93, R94, R95) -/

/-- An extreme takes the greater value (R94). -/
def maxOf : Option Nat → Nat → Option Nat
  | none, x => some x
  | some y, x => some (max y x)

/-- An extreme takes the lesser value (R94). -/
def minOf : Option Nat → Nat → Option Nat
  | none, x => some x
  | some y, x => some (min y x)

/-- The energy and the block counts of a block (R93). -/
def ChannelAcc.addEnergy (e : Nat) (cls : BlockClass) (a : ChannelAcc) : ChannelAcc :=
  match cls with
  | .excluded => { a with excluded := a.excluded + 1 }
  | .active => { a with sum := a.sum + e, sumActive := a.sumActive + e, active := a.active + 1 }
  | .quiet => { a with sum := a.sum + e, sumQuiet := a.sumQuiet + e, quiet := a.quiet + 1 }
  | .transition => { a with sum := a.sum + e, transition := a.transition + 1 }

/-- A histogram sample is placed in its bin (R53). -/
def ChannelAcc.placeSample (h0 : Nat) (l : Int) (a : ChannelAcc) : ChannelAcc :=
  let i := histogramBin h0 l
  let a := { a with histSamples := bump max32 a.histSamples }
  if i < 0 then { a with underflow := a.underflow + 1 }
  else if 240 ≤ i then { a with overflow := a.overflow + 1 }
  else { a with bins := a.bins.setIfInBounds i.toNat (a.bins.toList.getD i.toNat 0 + 1) }

/-- The histogram's part of a block with F settled: every hundredth is sampled (R94). -/
def ChannelAcc.sampleHistogram (h0 : Nat) (l : Int) (a : ChannelAcc) : ChannelAcc :=
  if 100 ≤ a.samplingCounter + 1 then ({ a with samplingCounter := 0 } : ChannelAcc).placeSample h0 l
  else { a with samplingCounter := a.samplingCounter + 1 }

/-- The extremes and the histogram of an included block (R94). -/
def ChannelAcc.addExtremes (k : Int) (h0 : Nat) (r : BlockResults) (a : ChannelAcc) : ChannelAcc :=
  let a := { a with maxPeak := maxOf a.maxPeak r.peak }
  let a := if r.sSettled then { a with maxS := maxOf a.maxS r.yS } else a
  if r.fSettled then
    ({ a with maxF := maxOf a.maxF r.yF, minF := minOf a.minF r.yF } : ChannelAcc).sampleHistogram h0
      (detectorLevel k r.yF)
  else { a with fSettling := true }

/-- The counts an included block adds to (R95). -/
def ChannelAcc.addCounts (r : BlockResults) (a : ChannelAcc) : ChannelAcc :=
  { a with
    overloadBlocks := addUpTo max32 a.overloadBlocks r.overload.toNat
    settlingSamples := addUpTo max32 a.settlingSamples r.settlingSamples
    saturations := addUpTo max32 a.saturations r.saturations }

/-- What every block adds, included or excluded: its gain changes, and its gain step as the last one (R95, R96). -/
def ChannelAcc.addGain (r : BlockResults) (a : ChannelAcc) : ChannelAcc :=
  { a with gainChanges := addUpTo max32 a.gainChanges r.gainChanges, finalGain := r.gain }

/-- A block is added to a channel's accumulators (R73 step 2, R93 to R95). -/
def ChannelAcc.addBlock (k : Int) (h0 : Nat) (r : BlockResults) (cls : BlockClass) (a : ChannelAcc) : ChannelAcc :=
  let a := (a.addEnergy r.energy cls).addGain r
  if cls = .excluded then a else (a.addExtremes k h0 r).addCounts r

/-- The accumulator adds the block of every channel enabled in the open interval (R73 step 2, R92). -/
def State.accumulateStep (s : State) : State :=
  match s.interval with
  | none => s
  | some iv =>
    { s with
      interval := some
        { iv with
          strikes := iv.strikes + s.handed.strike.toNat
          accs := iv.accs.mapWith fun c acc =>
            acc.map fun a => a.addBlock (s.k c) (s.active.chan.get c).h0 (s.results c) (s.handed.classes.get c) } }

/-! ### Interval records (R96, R97) -/

/-- The number of samples the Leq of a channel is averaged over (R43). -/
def ChannelAcc.n (a : ChannelAcc) : Nat := 48 * (a.active + a.quiet + a.transition)
/-- N_act (R43). -/
def ChannelAcc.nActive (a : ChannelAcc) : Nat := 48 * a.active
/-- N_q (R43). -/
def ChannelAcc.nQuiet (a : ChannelAcc) : Nat := 48 * a.quiet
/-- The blocks that ended while the interval was open (R86). -/
def ChannelAcc.blocks (a : ChannelAcc) : Nat := a.active + a.quiet + a.transition + a.excluded

/-- The interval record of a channel (R96, R97). -/
def intervalRecord (iv : Interval) (c : Chan) (a : ChannelAcc) (cs : ChannelSettings) (mode : ActivityMode)
    (m : MonitorChan) (closeTime : Stamp) (cause : CloseCause) (holdFollows : Bool) : IntervalRecord :=
  let leq := level cs.k a.sum a.n
  let lfMax := extremeLevel (detectorLevel cs.k) a.maxF
  let lpk := extremeLevel (peakLevel cs.k) a.maxPeak
  let pct := percentile cs.h0 a.bins.toList a.overflow a.histSamples
  let flags : RecordFlags :=
    { isPartial := decide (48 * a.blocks < iv.nNom)
      gap := iv.gap
      overload := decide (0 < a.overloadBlocks)
      saturated := decide (0 < a.saturations)
      fSettling := a.fSettling
      check := decide (0 < a.excluded)
      leqExceeded := exceeds a.limits.leq leq
      lmaxExceeded := exceeds a.limits.lmax lfMax
      peakExceeded := exceeds a.limits.peak lpk
      budgetWarned := m.warned
      noEntry := decide (iv.entry = .noEntry)
      configApplied := iv.configApplied
      clockSet := iv.clockSet
      holdFollows }
  { number := iv.number, chan := c, openTime := iv.openTime, closeTime, cause, entry := iv.entry, limits := a.limits
    n := a.n, active := a.active, quiet := a.quiet, transition := a.transition, excluded := a.excluded
    leq, leqActive := level cs.k a.sumActive a.nActive, leqQuiet := level cs.k a.sumQuiet a.nQuiet
    site := siteContribution mode cs.k a.sumActive a.nActive a.sumQuiet a.nQuiet
    lfMax, lfMin := extremeLevel (detectorLevel cs.k) a.minF, lsMax := extremeLevel (detectorLevel cs.k) a.maxS, lpk
    p1 := pct cs.n1, p2 := pct cs.n2, p3 := pct cs.n3, n1 := cs.n1, n2 := cs.n2, n3 := cs.n3
    overloadBlocks := a.overloadBlocks, settlingSamples := a.settlingSamples, saturations := a.saturations
    gainChanges := a.gainChanges, peaksOver := m.peaksOver, episodesOpened := m.episodesOpened
    histSamples := a.histSamples, strikes := iv.strikes, budgetUsed := budgetUsed m.budget a.sum
    finalGain := a.finalGain, flags := flags.pack }

/-- The record of one channel enters the record FIFO; an interval in which no block ended makes none (R84 step 1,
R96, R98). -/
def State.recordChannel (iv : Interval) (cause : CloseCause) (s : State) (c : Chan) : State :=
  match iv.accs.get c with
  | none => s
  | some a =>
    if a.blocks = 0 then s
    else
      s.putRecord s.handed.report.ended
        (intervalRecord iv c a (s.active.chan.get c) s.active.mode (s.monitor.get c) s.handed.report.ended cause
          s.acc.holdPending)

/-! ### Boundaries (R83 to R86) -/

/-- The aligned second (R83): the second of day changed and is a multiple of the active interval length. -/
def State.atAligned (s : State) : Bool :=
  s.handed.report.secondChanged && decide (s.handed.report.reading.second % s.active.intervalSeconds = 0)

/-- The close cause of the block end, when it carries a boundary cause (R83). -/
def State.closeCause (s : State) : Option CloseCause :=
  if s.handed.report.load then some .clockSet
  else if s.handed.report.dayChanged then some .midnight
  else if s.atAligned then some .aligned
  else if s.handed.report.scheduleChange.isSome then some .schedule
  else if s.acc.restartPending then some .resumeStart
  else none

/-- An opening is due with no interval open (R73, step 4). -/
def State.openingDue (s : State) : Bool :=
  s.acc.openingPending || (s.handed.report.load && decide (s.acc.phase = .untimed))

/-- The open interval closes: its records in channel order, then no interval, no entry in force and no thresholds
(R84 step 1, R68, R102). -/
def State.closeInterval (s : State) (iv : Interval) (cause : CloseCause) : State :=
  let s := Chan.all.foldl (State.recordChannel iv cause) s
  { s with
    interval := none
    clock := { s.clock with entryInForce := none }
    monitor := s.monitor.mapWith fun _ m => m.dropThresholds }

/-- Empty accumulators with the channel's limits and first gain changes (R85). -/
def ChannelAcc.opened (limits : Limits) (gainChanges gain : Nat) : ChannelAcc :=
  { limits, sum := 0, sumActive := 0, sumQuiet := 0, active := 0, quiet := 0, transition := 0, excluded := 0
    maxF := none, minF := none, maxS := none, maxPeak := none, fSettling := false, bins := Vector.replicate 240 0
    underflow := 0, overflow := 0, samplingCounter := 0, overloadBlocks := 0, settlingSamples := 0, saturations := 0
    gainChanges, histSamples := 0, finalGain := gain }

/-- The interval that opens at the block end (R85). `clamps` are the clamps made at this boundary and `applied` says
that a commit was applied at it. -/
def State.newInterval (s : State) (clamps : Quad Nat) (applied : Bool) (entry : Lookup) : Interval :=
  let a := s.active
  let t := s.handed.report.reading
  { number := s.acc.nextNumber, openTime := t, entry, nNom := nominalSamples a.intervalSeconds t, gap := false
    configApplied := applied || s.acc.carriedConfig
    clockSet := s.handed.report.load || s.acc.carriedClock
    strikes := 0
    accs := a.chan.mapWith fun c cs =>
      if cs.enable then
        some (.opened (effectiveLimits a.schedule cs.limitOffset entry)
          (addUpTo max32 (s.acc.carriedGain.get c) (clamps.get c)) (s.range.get c).gain)
      else none }

/-- The monitor's part of an opening (R102): thresholds for an enabled channel, none for another. -/
def MonitorChan.atOpening (cs : ChannelSettings) (acc : Option ChannelAcc) (nNom : Nat) (m : MonitorChan) :
    MonitorChan :=
  match acc with
  | some a => m.openWith cs a.limits nNom
  | none => m.dropThresholds

/-- The episodes the opening leaves without an Lmax limit close with LIMIT_REMOVED, channels in a free order
(R112). -/
def State.closeUnlimited (pick : Nat → Nat) (s : State) : State :=
  s.eachFreely pick (s.openEpisodes.filter fun c => (s.monitor.get c).lmax.isNone)
    (fun c s => s.closeEpisode c .limitRemoved s.handed.report.ended)

/-- An interval opens (R85, R68, R102, R112). -/
def State.openInterval (pick : Nat → Nat) (s : State) (clamps : Quad Nat) (applied : Bool) : State :=
  let entry := lookup s.active.schedule s.handed.report.reading
  let iv := s.newInterval clamps applied entry
  let s :=
    { s with
      interval := some iv
      clock := { s.clock with entryInForce := some entry }
      acc :=
        { s.acc with
          phase := .measuring, openingPending := false, restartPending := false, nextNumber := next32 s.acc.nextNumber
          carriedConfig := false, carriedClock := false, carriedGain := .same 0 }
      monitor := s.monitor.mapWith fun c m => MonitorChan.atOpening (s.active.chan.get c) (iv.accs.get c) iv.nNom m }
  s.closeUnlimited pick

/-- Step 2 of the boundary operation: HELD is entered (R84, R112). -/
def State.enterHeld (pick : Nat → Nat) (s : State) (closed : Option Nat) : State :=
  let stamp := s.handed.report.ended
  let s :=
    { s with
      acc := { s.acc with phase := .held, holdPending := false, openingPending := false, restartPending := false } }
  let s := s.offer none stamp (.holdEntered closed)
  let s := s.eachFreely pick s.openEpisodes (fun c s => s.closeEpisode c .limitRemoved s.handed.report.ended)
  if s.store.commitPending then s.commitAtOnce stamp else s

/-- Step 3 of the boundary operation: a pending commit, and the opening (R84). -/
def State.enterMeasuring (pick : Nat → Nat) (s : State) : State :=
  if s.store.commitPending then
    let clamps := s.clampCounts s.store.staged
    (s.applyCommit true s.handed.report.ended).openInterval pick clamps true
  else s.openInterval pick (.same 0) false

/-- The carried clock-set mark of a load at whose block end no interval was open and none opens (R89, log
entry 16). -/
def State.carryClock (s : State) : State := { s with acc := { s.acc with carriedClock := true } }

/-- The boundary operation with nothing to close (R73 step 4, R84, R89). -/
def State.openingBoundary (pick : Nat → Nat) (s : State) : State :=
  if s.acc.holdPending then (if s.handed.report.load then s.carryClock else s).enterHeld pick none
  else s.enterMeasuring pick

/-- The accumulator's work at a block end after the block has been added: steps 3 and 4 of R73, and the load of a
block end that opens nothing (R89). -/
def State.boundaryStep (pick : Nat → Nat) (s : State) : State :=
  match s.interval with
  | some iv =>
    match s.closeCause with
    | some cause =>
      let s := s.closeInterval iv cause
      if s.acc.holdPending then s.enterHeld pick (some iv.number) else s.enterMeasuring pick
    | none => s
  | none =>
    if s.openingDue then s.openingBoundary pick
    else if s.handed.report.load then s.carryClock
    else s

end Sys2Proof.Machine
end

