-- ==== Sys2Proof/Machine/Report.lean ====
section
/-! DEFINITION. Chapter 9, section 9.4: the state after the most recent block end, live reports, and the live point. -/

namespace Sys2Proof.Machine

/-- What a live item reads of a channel's accumulators (R167). -/
def ChannelAcc.image (a : ChannelAcc) : ImageAcc :=
  { sum := a.sum, n := a.n, maxPeak := a.maxPeak, sumActive := a.sumActive, nActive := a.nActive
    sumQuiet := a.sumQuiet, nQuiet := a.nQuiet }

/-- What the live items read of a channel (R167). -/
def State.imageOf (s : State) (c : Chan) : ImageChan :=
  { yF := (s.results c).yF, yS := (s.results c).yS, gain := (s.results c).gain
    acc := (s.accOf c).map ChannelAcc.image
    budgetUsed := match s.accOf c with
      | some a => budgetUsed (s.monitor.get c).budget a.sum
      | none => 0
    phase := (s.monitor.get c).phase }

/-- The state after this block end is kept for live reports and snapshots (R167, R168, log entry 17). -/
def State.takeImage (s : State) : State :=
  { s with
    image :=
      { stamp := s.clock.now, mode := s.active.mode, chans := (Quad.same ()).mapWith fun c _ => s.imageOf c } }

/-- The value of a live item, with the channel's active K (R167). -/
def liveValue (mode : ActivityMode) (k : Int) (x : ImageChan) : LiveItem → Int
  | .fLevel => detectorLevel k x.yF
  | .sLevel => detectorLevel k x.yS
  | .leqSoFar =>
    match x.acc with
    | some a => level k a.sum a.n
    | none => nosig
  | .peakSoFar =>
    match x.acc with
    | some a => extremeLevel (peakLevel k) a.maxPeak
    | none => nosig
  | .gainStep => x.gain
  | .budgetUsed => x.budgetUsed
  | .episodeState => x.phase.code
  | .siteSoFar =>
    match x.acc with
    | some a => siteContribution mode k a.sumActive a.nActive a.sumQuiet a.nQuiet
    | none => indet

/-- A live report formed from the state after the most recent block end (R167, R168). -/
def State.liveReport (s : State) : LiveReport :=
  { stamp := s.image.stamp, overwritten := s.report.liveOverwritten, items := s.report.items
    values := s.image.chans.mapWith fun c x => s.report.items.map (liveValue s.image.mode (s.k c) x) }

/-- A live report enters the live slot, replacing an unsent one (R166, log entry 18). -/
def State.putLive (s : State) (r : LiveReport) : State :=
  State.transmit
    { s with
      report :=
        { s.report with
          liveSlot := some r
          liveOverwritten :=
            if s.report.liveSlot.isSome then bump 65535 s.report.liveOverwritten else s.report.liveOverwritten } }

/-- The live counter reaches the live period at this block end (R166). -/
def ReportQueue.atLivePoint (q : ReportQueue) : Bool := decide (q.livePeriod ≤ q.liveCounter + 1)

/-- The live step of a block end (R166). -/
def State.liveStep (s : State) : State :=
  let s := s.takeImage
  if s.report.atLivePoint then
    let s := { s with report := { s.report with liveCounter := 0 } }
    if s.report.liveOn then s.putLive s.liveReport else s
  else { s with report := { s.report with liveCounter := s.report.liveCounter + 1 } }

end Sys2Proof.Machine
end

