-- ==== Sys2Proof/Machine/BlockEnd.lean ====
section
/-! DEFINITION. The block end (R1): the clock's step, the units' steps and the order they may be taken in, BLOCK_END and
the events inside a block end. A completed block leaves its steps in `blockWork`; they are taken together by BLOCK_END,
or up to one of them by the command that names an event of that step (log entries 2, 3 and 4). -/

namespace Sys2Proof.Machine

/-! ### The clock (R56, R63, R68) -/

/-- The schedule-change indication of a minute-change lookup, with an interval open (R68). -/
def State.scheduleChange (s : State) (t : Stamp) : Option Lookup :=
  match s.interval with
  | some _ =>
    let found := lookup s.active.schedule t
    if s.clock.entryInForce = some found then none else some found
  | none => none

/-- The block-end report of an advance (R56). -/
def State.advanceReport (s : State) : ClockReport :=
  let t := s.clock.now
  let t' := advance t
  let minute := secondTurns t && decide (t'.second % 60 = 0)
  { ended := t', reading := t', load := false, secondChanged := secondTurns t, minuteChanged := minute
    dayChanged := dayTurns t, scheduleChange := if minute then s.scheduleChange t' else none, named := t.block }

/-- The load report (R63). -/
def State.loadReport (s : State) (t : Stamp) : ClockReport :=
  { ended := advance s.clock.now, reading := t, load := true, secondChanged := false, minuteChanged := false
    dayChanged := false, scheduleChange := none, named := s.clock.now.block }

/-- The clock's step at a block end: the advance, or the load of a pending time (R56, R63). -/
def State.clockStep (s : State) : State :=
  match s.clock.pendingLoad with
  | none =>
    { s with
      clock := { s.clock with now := advance s.clock.now }
      handed := { s.handed with report := s.advanceReport } }
  | some t =>
    { s with
      clock := { s.clock with isSet := true, now := t, pendingLoad := none }
      handed := { s.handed with report := s.loadReport t } }

/-! ### The units' steps -/

/-- A unit's step. -/
def runTask (pick : Nat → Nat) : Task → State → State
  | .range c, s => s.setRange c ((s.range.get c).blockEnd (s.active.range.get c) (s.active.codes.get c))
  | .weigh c, s => s.handBlock c
  | .clock, s => s.clockStep
  | .classify, s => s.classifyStep
  | .engine, s => s.engineStep
  | .accumulate, s => s.accumulateStep
  | .peak c, s => s.peakStep c
  | .budget c, s => s.budgetStep c
  | .episode c, s => s.episodeStep c
  | .capture c, s => s.captureStep c
  | .boundary, s => s.boundaryStep pick
  | .alert, s => s.alertStep
  | .live, s => s.liveStep

/-- Every step of a block end. -/
def allTasks : List Task :=
  [.range .ch1, .range .ch2, .range .ch3, .range .ch4, .weigh .ch1, .weigh .ch2, .weigh .ch3, .weigh .ch4, .clock,
    .classify, .engine, .accumulate,
    .peak .ch1, .budget .ch1, .episode .ch1, .capture .ch1, .peak .ch2, .budget .ch2, .episode .ch2, .capture .ch2,
    .peak .ch3, .budget .ch3, .episode .ch3, .capture .ch3, .peak .ch4, .budget .ch4, .episode .ch4, .capture .ch4,
    .boundary, .alert, .live]

/-- The place of a step in the order of the block end. -/
def Task.rank : Task → Nat
  | .range _ => 0
  | .weigh _ => 1
  | .clock => 2
  | .classify => 3
  | .engine => 3
  | .accumulate => 4
  | .peak _ => 5
  | .budget _ => 6
  | .episode _ => 7
  | .capture _ => 8
  | .boundary => 8
  | .alert => 9
  | .live => 10

/-- Whether `u` must be taken before `t` (R3, R37, R56, R73, R103, R121, R128, R151, R166). Nothing waits for the
engine's or the capture controller's step, and the monitor's steps of one channel do not wait for another's. -/
def Task.before : Task → Task → Bool
  | .engine, _ => false
  | .capture _, _ => false
  | .peak c, .budget d => decide (c = d)
  | .peak c, .episode d => decide (c = d)
  | .peak c, .capture d => decide (c = d)
  | .budget c, .episode d => decide (c = d)
  | .budget c, .capture d => decide (c = d)
  | .episode c, .capture d => decide (c = d)
  | u, t => decide (u.rank < t.rank)

/-- A step is ready when no step that must come before it is left. -/
def ready (left : List Task) (t : Task) : Bool := left.all fun u => !u.before t

/-- Steps are taken one after another, each leaving the list of those still to be taken. -/
def runTasks (pick : Nat → Nat) : List Task → State → State
  | [], s => s
  | t :: rest, s =>
    runTasks pick rest (runTask pick t { s with blockWork := s.blockWork.map fun l => l.erase t })

/-- The steps of `l` in a free order that the rules allow. -/
def State.takeSteps (pick : Nat → Nat) (s : State) (l : List Task) : State :=
  runTasks pick (schedule ready pick l.length s.choice l) { s with choice := s.choice + l.length }

/-- The block end is over: the marks of the block are those of the next one (R90, R134). -/
def State.endOfBlock (s : State) : State :=
  { s with
    blockWork := none
    acc := { s.acc with checkInBlock := s.checkMarks }
    capture := { s.capture with closeBlock := .same false } }

/-- The steps of a completed block that are still to be taken are taken (R1). -/
def State.finishBlock (pick : Nat → Nat) (s : State) : State :=
  match s.blockWork with
  | some l => (s.takeSteps pick l).endOfBlock
  | none => s

/-- A block end has begun and is not yet over. -/
def State.blockEndBegun (s : State) : Bool :=
  match s.blockWork with
  | some l => decide (l ≠ allTasks)
  | none => false

/-- A block end that has begun is completed before anything else is taken (log entry 4). -/
def State.settle (pick : Nat → Nat) (s : State) : State := if s.blockEndBegun then s.finishBlock pick else s

/-- The command that names an event inside a block end: with a block end due, the steps before step `t` are taken, and
if the event falls at step `t` then that step too; otherwise nothing happens (log entry 3). -/
def State.takeUpTo (pick : Nat → Nat) (s : State) (t : Task) (falls : State → Bool) : State :=
  match s.blockWork with
  | none => s
  | some l =>
    if l.contains t then
      let s' := s.takeSteps pick (l.filter fun u => u.before t)
      if falls s' then runTask pick t { s' with blockWork := s'.blockWork.map fun l => l.erase t } else s
    else s

/-! ### Meanings -/

/-- BLOCK_END (R1). -/
def execBlockEnd (s : State) : Host.Outcome State Fault Refusal := .next (s.finishBlock Config.pick)

/-- WINDOW_END (R12 step 3, R13). -/
def execWindowEnd (c : Chan) (s : State) : Host.Outcome State Fault Refusal :=
  .next (s.takeUpTo Config.pick (.range c) fun s => (s.range.get c).windowEnds (s.active.range.get c))

/-- EPISODE_RELEASED (R109). -/
def execEpisodeReleased (c : Chan) (s : State) : Host.Outcome State Fault Refusal :=
  .next (s.takeUpTo Config.pick (.episode c) fun s => s.episodeReleases c)

/-- TOGGLE_POINT (R120). -/
def execTogglePoint (s : State) : Host.Outcome State Fault Refusal :=
  .next (s.takeUpTo Config.pick .alert fun s => s.alert.atToggle)

/-- CAPTURE_TAIL_END (R135). -/
def execCaptureTailEnd (c : Chan) (s : State) : Host.Outcome State Fault Refusal :=
  .next (s.takeUpTo Config.pick (.capture c) fun s => decide (s.recordingEnds c = .tailEnds))

/-- CAPTURE_FULL (R135). -/
def execCaptureFull (c : Chan) (s : State) : Host.Outcome State Fault Refusal :=
  .next (s.takeUpTo Config.pick (.capture c) fun s => decide (s.recordingEnds c = .full))

/-- CHECK_SETTLED (R151). -/
def execCheckSettled (s : State) : Host.Outcome State Fault Refusal :=
  .next (s.takeUpTo Config.pick .engine fun s => decide (s.checkStepKind = .settled))

/-- CHECK_RESULT (R152). -/
def execCheckResult (s : State) : Host.Outcome State Fault Refusal :=
  .next (s.takeUpTo Config.pick .engine fun s => decide (s.checkStepKind = .completes))

/-- LIVE_POINT (R166). -/
def execLivePoint (s : State) : Host.Outcome State Fault Refusal :=
  .next (s.takeUpTo Config.pick .live fun s => s.report.atLivePoint)

end Sys2Proof.Machine
end

