-- ==== Sys2Proof/Machine/SamplePort.lean ====
section
/-! DEFINITION. Chapter 1, sections 1.1 and 1.2: sample frames, their path through range controller and weighting unit,
and the stall. -/

namespace Sys2Proof.Machine

/-- The value and the gain step a channel's unit normalises for a frame: the raw sample at the channel's step, or the
test value at g_check during an INTERNAL check (R22, R24). -/
def State.unitInput (s : State) (c : Chan) (x : Int) : Int × Nat :=
  match s.check.internalOn c with
  | some p => (testValue p.amplitude s.port.frameCounter, p.gain)
  | none => (x, (s.range.get c).gain)

/-- The normalised sample the paths of a channel take for a raw sample (R22, R23, R24). -/
def State.unitSample (s : State) (c : Chan) (x : Int) : Int :=
  (s.unit.get c).normalised (s.range.get c).isSettling (s.unitInput c x).2 (s.unitInput c x).1

/-- One channel handles its sample: first the unit, with the gain step in force when the sample arrived, then the
range controller moves on (R1, R11). -/
def State.sampleChannel (s : State) (c : Chan) (x : Int) : State :=
  (s.setUnit c
      ((s.unit.get c).take (s.active.mainFilter c) (s.active.peakFilter c) (s.check.internalOn c).isSome
        (s.unitSample c x) x)).setRange c
    ((s.range.get c).sample (s.active.range.get c) (s.active.codes.get c) x)

/-- The frame counter advances; after frame 47 it returns to 0 and the block end is due (R1). -/
def State.countFrame (s : State) : State :=
  if s.port.frameCounter + 1 < Config.framesPerBlock then
    { s with port := { s.port with frameCounter := s.port.frameCounter + 1 } }
  else { s with port := { s.port with frameCounter := 0 }, blockWork := some allTasks }

/-- ACT is sampled as the frame with frame in block 0 arrives (R91). -/
def State.sampleAct (s : State) (act : Bool) : State :=
  if s.port.frameCounter = 0 then { s with port := { s.port with actSample := act } } else s

/-- A frame is handled by the port and the four channels (R1). -/
def State.handleFrame (s : State) (x1 x2 x3 x4 : Sample) (act : Bool) : State :=
  let s := s.sampleAct act
  (((((s.sampleChannel .ch1 x1.toInt).sampleChannel .ch2 x2.toInt).sampleChannel .ch3 x3.toInt).sampleChannel .ch4
    x4.toInt).countFrame)

/-- The stall length of INPUT_RESUMED: whole milliseconds, at least 4, saturating (R6). -/
def stallMillis (gapMicros : Nat) : Nat := min max32 (max 4 (gapMicros / 1000))

/-- A frame arriving in STALLED returns the port to RUNNING and offers INPUT_RESUMED (R6). -/
def State.resumeInput (s : State) (gapMicros : Nat) : State :=
  if s.port.stalled then
    State.offer { s with port := { s.port with stalled := false } } none s.clock.now
      (.inputResumed (stallMillis gapMicros))
  else s

/-- SAMPLE_FRAME (R1, R4, R6). A block end still due is completed before a frame of the next block is handled. -/
def execSampleFrame (x1 x2 x3 x4 : Sample) (act : Bool) (gapMicros : Nat) (s : State) :
    Host.Outcome State Fault Refusal :=
  .next (((s.finishBlock Config.pick).resumeInput gapMicros).handleFrame x1 x2 x3 x4 act)

/-- The open interval is marked with GAP (R5, R95). -/
def State.markGap (s : State) : State :=
  match s.interval with
  | some iv => { s with interval := some { iv with gap := true } }
  | none => s

/-- What follows INPUT_STALLED, in a free order (R5): a channel's episode closes, or a running check ends. -/
inductive StallEffect where
  | closeEpisode (c : Chan)
  | endCheck
  deriving DecidableEq, Repr

/-- One effect of the stall (R114, R155). -/
def StallEffect.take (x : StallEffect) (s : State) : State :=
  match x with
  | .closeEpisode c => s.closeEpisode c .stalled s.clock.now
  | .endCheck => s.cutCheck .stalled s.clock.now

/-- The effects a stall has to take: those of the channels with an open episode, and of a running check. -/
def State.stallEffects (s : State) : List StallEffect :=
  s.openEpisodes.map .closeEpisode ++ (if s.check.phase = .idle then [] else [.endCheck])

/-- The port enters STALLED (R5). -/
def State.enterStalled (pick : Nat → Nat) (s : State) : State :=
  let s := State.offer { s with port := { s.port with stalled := true } } none s.clock.now
    (.inputStalled s.port.frameCounter)
  (s.markGap).eachFreely pick s.stallEffects StallEffect.take

/-- STALL_TIMEOUT (R4, R5). In STALLED no stall timer runs, and nothing happens. -/
def execStallTimeout (s : State) : Host.Outcome State Fault Refusal :=
  .next (let s' := s.finishBlock Config.pick
    if s'.port.stalled then s' else s'.enterStalled Config.pick)

end Sys2Proof.Machine
end

