-- ==== Sys2Proof/Machine/Link.lean ====
section
/-! DEFINITION. Chapter 10: the receiver, the command queue, the beginning of a command's execution with its generic
tests, and the completion of a transmission. -/

namespace Sys2Proof.Machine

/-! ### The receiver (R174, R175) -/

/-- A command enters the command queue as its newest, or finds it full and is counted as an overrun (R175). -/
def Link.enqueue (l : Link) (cmd : Command) : Link :=
  if Config.commandQueueSize ≤ l.queue.length then { l with overruns := bump 65535 l.overruns }
  else { l with queue := l.queue ++ [cmd] }

/-- A completed frame is discarded for its sum or a full command queue, and counted, or enters the queue (R175). -/
def Link.complete (l : Link) (kind tag : Byte) (body : List Byte) (sum : Byte) : Link :=
  let l := { l with receiver := .hunt }
  if sum ≠ 0 then { l with checkErrors := bump 65535 l.checkErrors } else l.enqueue ⟨kind, tag, body⟩

/-- The state after the tag: BODY, or CHECK if the length is 0 (R174). -/
def afterTag (len : Nat) (kind tag : Byte) (sum : Byte) : Receiver :=
  if len = 0 then .check kind tag [] sum else .body len kind tag [] sum

/-- The receiver handles a byte by its state (R174). -/
def Link.receive (l : Link) (b : Byte) : Link :=
  match l.receiver with
  | .hunt => if b = 0xA5 then { l with receiver := .length none 0 } else l
  | .length none sum => { l with receiver := .length (some b) (sum + b) }
  | .length (some low) sum =>
    let len := low.toNat + 256 * b.toNat
    if Config.maxBody < len then { l with receiver := .hunt } else { l with receiver := .header len none (sum + b) }
  | .header len none sum => { l with receiver := .header len (some b) (sum + b) }
  | .header len (some kind) sum => { l with receiver := afterTag len kind b (sum + b) }
  | .body len kind tag got sum =>
    if got.length + 1 < len then { l with receiver := .body len kind tag (got ++ [b]) (sum + b) }
    else { l with receiver := .check kind tag (got ++ [b]) (sum + b) }
  | .check kind tag body sum => l.complete kind tag body (sum + b)

/-- The inter-byte timer expires: the frame in progress is abandoned and counted; in HUNT no timer runs (R174). -/
def Link.expire (l : Link) : Link :=
  match l.receiver with
  | .hunt => l
  | _ => { l with receiver := .hunt, timeouts := bump 65535 l.timeouts }

/-- BYTE_RECEIVED (R174). -/
def execByteReceived (b : Byte) (s : State) : Host.Outcome State Fault Refusal :=
  .next (let s := s.settle Config.pick
    { s with link := s.link.receive b })

/-- FRAME_RECEIVED: the check byte of the frame in progress arrives and completes it. A receiver that waits for no
check byte has no frame to complete (R175, log entry 6). -/
def execFrameReceived (check : Byte) (s : State) : Host.Outcome State Fault Refusal :=
  .next (let s := s.settle Config.pick
    match s.link.receiver with
    | .check kind tag body sum => { s with link := s.link.complete kind tag body (sum + check) }
    | _ => s)

/-- RECEIVE_TIMEOUT (R174). -/
def execReceiveTimeout (s : State) : Host.Outcome State Fault Refusal :=
  .next (let s := s.settle Config.pick
    { s with link := s.link.expire })

/-! ### Beginning execution (R176, R177) -/

/-- Status codes (R177). -/
inductive Status where
  | ok | unknownKind | badLength | badValue | wrongState | empty | notFound
  deriving DecidableEq, Repr

def Status.code : Status → Nat
  | .ok => 0
  | .unknownKind => 1
  | .badLength => 2
  | .badValue => 3
  | .wrongState => 4
  | .empty => 5
  | .notFound => 6

/-- What a command does: the state it leaves, its status, and what its reply carries after the status byte. -/
structure Answer where
  state : State
  status : Status
  rest : List Byte

/-- A refused command changes nothing and is answered with its status alone (R177). -/
def Answer.refuse (s : State) (status : Status) : Answer := ⟨s, status, []⟩

/-- A command carried out with nothing after the status byte. -/
def Answer.done (s : State) : Answer := ⟨s, .ok, []⟩

/-- The body of a reply (R177, R184). -/
def Answer.body (a : Answer) : List Byte := u8 a.status.code ++ a.rest

/-- No command is in execution and the reply queue has a place (R161, R176). -/
def State.canBegin (s : State) : Bool :=
  s.capture.job.isNone && decide (s.report.replies.length < Config.replyQueueSize)

/-- The command queue without the command that begins execution: it is the oldest there, or it arrives on an empty
queue (R176, log entry 6). -/
def Link.taking (l : Link) (cmd : Command) : Option Link :=
  match l.queue with
  | [] => some l
  | c :: rest => if c = cmd then some { l with queue := rest } else none

/-- The state in which the command executes, if its execution can begin (R176). -/
def State.begin (s : State) (cmd : Command) : Option State :=
  if s.canBegin then (s.link.taking cmd).map fun l => { s with link := l } else none

/-- A command whose execution cannot begin waits in the command queue: it stands there, or its frame completes now (R175,
R176, log entry 6). -/
def State.wait (s : State) (cmd : Command) : State :=
  if cmd ∈ s.link.queue then s else { s with link := s.link.enqueue cmd }

/-- The row of the table that is the execution of a command (R177). -/
def Command.row (cmd : Command) : Instr :=
  match cmd.kind.toNat with
  | 0x01 => .ident cmd.tag cmd.body
  | 0x02 => .status cmd.tag cmd.body
  | 0x03 => .softReset cmd.tag cmd.body
  | 0x04 => .setTime cmd.tag cmd.body
  | 0x05 => .hold cmd.tag cmd.body
  | 0x06 => .resume cmd.tag cmd.body
  | 0x07 => .editChannel cmd.tag cmd.body
  | 0x08 => .editRange cmd.tag cmd.body
  | 0x09 => .editGainCodes cmd.tag cmd.body
  | 0x0A => .editWeighting cmd.tag cmd.body
  | 0x0B => .editLimits cmd.tag cmd.body
  | 0x0C => .editInterval cmd.tag cmd.body
  | 0x0D => .editActivity cmd.tag cmd.body
  | 0x0E => .commit cmd.tag cmd.body
  | 0x0F => .discard cmd.tag cmd.body
  | 0x10 => .readSettings cmd.tag cmd.body
  | 0x11 => .setAlert cmd.tag cmd.body
  | 0x12 => .setCapture cmd.tag cmd.body
  | 0x13 => .setReporting cmd.tag cmd.body
  | 0x14 => .snapshot cmd.tag cmd.body
  | 0x15 => .readRecord cmd.tag cmd.body
  | 0x16 => .readEvent cmd.tag cmd.body
  | 0x17 => .listCaptures cmd.tag cmd.body
  | 0x18 => .readCapture cmd.tag cmd.body
  | 0x19 => .releaseCapture cmd.tag cmd.body
  | 0x1A => .lendMemory cmd.tag cmd.body
  | 0x1B => .reclaimMemory cmd.tag cmd.body
  | 0x1C => .startCheck cmd.tag cmd.body
  | 0x1D => .abortCheck cmd.tag cmd.body
  | _ => .unknownKind cmd.kind cmd.tag cmd.body

/-- The oldest command of the command queue, as its row, when the three things hold under which it begins execution
(R176). -/
def State.readyCommand (s : State) : Option Instr :=
  if s.canBegin then s.link.queue.head?.map Command.row else none

/-- A command's reply is formed: kind + 80h, the command's tag (R169, R173). -/
def Answer.send (a : Answer) (kind tag : Byte) : State := a.state.reply (kind + 0x80) tag a.body

/-- The generic length test, then the command's own rule (R177). -/
def answer (kind : Byte) (body : List Byte) (rule : List Byte → State → Answer) (s : State) : Answer :=
  if commandLength kind = some body.length then rule body s else .refuse s .badLength

/-- A link command: when its execution can begin it is carried out and its reply formed; until then it waits in the
command queue (R176, R177). -/
def State.runCommand (pick : Nat → Nat) (s : State) (kind tag : Byte) (body : List Byte)
    (rule : List Byte → State → Answer) : State :=
  let s := s.settle pick
  match s.begin ⟨kind, tag, body⟩ with
  | some s' => (answer kind body rule s').send kind tag
  | none => s.wait ⟨kind, tag, body⟩

/-- The same with something that follows the reply, when the command is carried out with status OK. -/
def State.runCommandThen (pick : Nat → Nat) (s : State) (kind tag : Byte) (body : List Byte)
    (rule : List Byte → State → Answer) (after : State → State) : State :=
  let s := s.settle pick
  match s.begin ⟨kind, tag, body⟩ with
  | some s' =>
    let a := answer kind body rule s'
    if a.status = .ok then after (a.send kind tag) else a.send kind tag
  | none => s.wait ⟨kind, tag, body⟩

/-- UNKNOWN_KIND: answered in kind 80h with status UNKNOWN_KIND. A command kind is no unknown kind, and nothing
happens (R177). -/
def execUnknownKind (kind tag : Byte) (body : List Byte) (s : State) : Host.Outcome State Fault Refusal :=
  .next (let s := s.settle Config.pick
    if commandLength kind = none then
      match s.begin ⟨kind, tag, body⟩ with
      | some s' => s'.reply 0x80 tag (u8 Status.unknownKind.code)
      | none => s.wait ⟨kind, tag, body⟩
    else s)

/-! ### Sending (R181) -/

/-- TRANSMIT_COMPLETE: the transmitter becomes idle and the report queue chooses again; an idle one stays so (R169,
R181). -/
def execTransmitComplete (s : State) : Host.Outcome State Fault Refusal :=
  .next (let s := s.settle Config.pick
    match s.report.sending with
    | some _ => State.transmit { s with report := { s.report with sending := none } }
    | none => s)

end Sys2Proof.Machine
end

