-- ==== Sys2Proof/Machine/CaptureCommands.lean ====
section
/-! DEFINITION. The commands of chapter 7 and the completions of the memory port. -/

namespace Sys2Proof.Machine

/-! ### LIST_CAPTURES (R143) -/

/-- The descriptors of the captures with an age order, with region, role and tail (R143). -/
def Capture.listedAt (k : Capture) (age : Nat) : List (List Byte) :=
  (List.finRange 16).filterMap fun i =>
    match k.regions[i] with
    | .recording d tail => if d.age = age then some (descriptorBytes i 1 tail d) else none
    | .stored d => if d.age = age then some (descriptorBytes i 2 none d) else none
    | _ => none

/-- A channel's ring region, head and fill (R184). -/
def Capture.ringBytes (k : Capture) (c : Chan) : List Byte :=
  u8 (match k.ringRegion c with
    | some i => i.val
    | none => 0) ++ u16 (k.rings.get c).head ++ u16 (k.rings.get c).fill

/-- The LIST_CAPTURES reply after its status byte (R184): descriptors in age order, oldest first. -/
def Capture.listBytes (k : Capture) : List Byte :=
  u8 k.lend.code ++ flag k.protect ++ u16 k.preLength ++ u16 k.tailLength ++ Chan.all.flatMap k.ringBytes
    ++ u8 k.held.length ++ ((List.range 16).flatMap fun n => (k.listedAt (n + 1)).flatten)

/-- LIST_CAPTURES (R143). -/
def listCapturesRule (_body : List Byte) (s : State) : Answer := ⟨s, .ok, s.capture.listBytes⟩

/-- LIST_CAPTURES (R143). -/
def execListCaptures (tag : Byte) (body : List Byte) (s : State) : Host.Outcome State Fault Refusal :=
  .next (s.runCommand Config.pick 0x17 tag body listCapturesRule)

/-! ### READ_CAPTURE (R141) -/

/-- The count of a READ_CAPTURE clamped into 1 to 8 and to what the capture holds (R141, step 5). -/
def readCount (count first length : Nat) : Nat := min (clamp 1 8 count) (length - first)

/-- What READ_CAPTURE comes to: a refusal, or the job it begins (R141). -/
def Capture.readJob (k : Capture) (tag : Byte) (body : List Byte) : Status ⊕ ReadJob :=
  if k.lend ≠ .owned then .inl .wrongState
  else
    match k.findId (field16 body 0) with
    | none => .inl .notFound
    | some i =>
      match k.regions[i] with
      | .stored d =>
        if d.length ≤ field16 body 2 then .inl .badValue
        else
          .inr
            { tag, id := d.id, region := i, start := d.start, first := field16 body 2
              count := readCount (field8 body 4) (field16 body 2) d.length, got := [] }
      | _ => .inl .wrongState

/-- READ_CAPTURE begins execution: refused at once, or in execution with one reply place reserved until its last read
has completed (R141, R161, R176). -/
def State.beginRead (s : State) (tag : Byte) (body : List Byte) : State :=
  if commandLength 0x18 = some body.length then
    match s.capture.readJob tag body with
    | .inl status => (Answer.refuse s status).send 0x18 tag
    | .inr j =>
      State.arbitrate
        { s with capture := { s.capture with job := some j }, report := { s.report with reserved := 1 } }
  else (Answer.refuse s .badLength).send 0x18 tag

/-- READ_CAPTURE (R141). -/
def execReadCapture (tag : Byte) (body : List Byte) (s : State) : Host.Outcome State Fault Refusal :=
  .next (let s := s.settle Config.pick
    match s.begin ⟨0x18, tag, body⟩ with
    | some s' => s'.beginRead tag body
    | none => s.wait ⟨0x18, tag, body⟩)

/-! ### RELEASE_CAPTURE, LEND_MEMORY, RECLAIM_MEMORY -/

/-- RELEASE_CAPTURE (R142). -/
def releaseCaptureRule (body : List Byte) (s : State) : Answer :=
  match s.capture.findId (field16 body 0) with
  | none => .refuse s .notFound
  | some i =>
    match s.capture.regions[i] with
    | .stored d => .done { s with capture := s.capture.release i d }
    | _ => .refuse s .wrongState

/-- RELEASE_CAPTURE (R142). -/
def execReleaseCapture (tag : Byte) (body : List Byte) (s : State) : Host.Outcome State Fault Refusal :=
  .next (s.runCommand Config.pick 0x19 tag body releaseCaptureRule)

/-- LEND_MEMORY: the drain begins (R144). -/
def lendMemoryRule (_body : List Byte) (s : State) : Answer :=
  match s.capture.lend with
  | .owned => .done { s with capture := { s.capture with lend := .lending } }
  | _ => .refuse s .wrongState

/-- LEND_MEMORY: with nothing to drain the lend state becomes LENT at once, after the reply (R144). -/
def execLendMemory (tag : Byte) (body : List Byte) (s : State) : Host.Outcome State Fault Refusal :=
  .next (s.runCommandThen Config.pick 0x1A tag body lendMemoryRule State.drain)

/-- The memory as the outside reader hands it back: any contents (R145, log entry 10). -/
def reclaimedMemory (lent : Nat → List Host.Cell → List Host.Cell) (s : State) : List Host.Cell :=
  Memory.ofCells (lent s.choice s.memory)

/-- RECLAIM_MEMORY (R145). -/
def reclaimMemoryRule (lent : Nat → List Host.Cell → List Host.Cell) (_body : List Byte) (s : State) : Answer :=
  match s.capture.lend with
  | .lent =>
    .done
      { s with
        memory := reclaimedMemory lent s
        choice := s.choice + 1
        capture := { s.capture.emptyRings with lend := .owned } }
  | _ => .refuse s .wrongState

/-- RECLAIM_MEMORY (R145). -/
def execReclaimMemory (tag : Byte) (body : List Byte) (s : State) : Host.Outcome State Fault Refusal :=
  .next (s.runCommand Config.pick 0x1B tag body (reclaimMemoryRule Config.lentMemory))

/-! ### Completions of the memory port -/

/-- MEMORY_WRITE_DONE: the write in flight completes; with none in flight nothing happens (R138). -/
def execMemoryWriteDone (s : State) : Host.Outcome State Fault Refusal :=
  let s := s.settle Config.pick
  match s.capture.inFlight with
  | some (.write e) =>
    if e.position < Config.regionPositions then .next (s.completeWrite e)
    else .fault (.outsideCaptureMemory e.position)
  | _ => .next s

/-- MEMORY_READ_DONE: the read in flight completes; with none in flight nothing happens (R138, R141). -/
def execMemoryReadDone (s : State) : Host.Outcome State Fault Refusal :=
  let s := s.settle Config.pick
  match s.capture.inFlight with
  | some (.read region position) =>
    if position < Config.regionPositions then .next (s.completeRead region position)
    else .fault (.outsideCaptureMemory position)
  | _ => .next s

end Sys2Proof.Machine
end

