-- ==== Sys2Proof/Machine/ControlCommands.lean ====
section
/-! DEFINITION. The commands that steer the measurement, the clock, the alert line, the capture settings, reporting and
the check engine. -/

namespace Sys2Proof.Machine

/-- SET_TIME: the fields become the pending load (R61). -/
def setTimeRule (body : List Byte) (s : State) : Answer :=
  match setTimeOf body with
  | some t => .done { s with clock := { s.clock with pendingLoad := some t } }
  | none => .refuse s .badValue

/-- SET_TIME (R61). -/
def execSetTime (tag : Byte) (body : List Byte) (s : State) : Host.Outcome State Fault Refusal :=
  .next (s.runCommand Config.pick 0x04 tag body setTimeRule)

/-- HOLD (R87). -/
def holdRule (_body : List Byte) (s : State) : Answer :=
  match s.acc.phase with
  | .untimed => .refuse s .wrongState
  | .measuring => .done { s with acc := { s.acc with holdPending := true } }
  | .held => .done { s with acc := { s.acc with openingPending := false } }

/-- HOLD (R87). -/
def execHold (tag : Byte) (body : List Byte) (s : State) : Host.Outcome State Fault Refusal :=
  .next (s.runCommand Config.pick 0x05 tag body holdRule)

/-- The effect of RESUME on the accumulator's flags (R88). -/
def Accumulator.resume (a : Accumulator) : Accumulator :=
  match a.phase with
  | .untimed => a
  | .held => { a with openingPending := true }
  | .measuring =>
    if a.holdPending then { a with holdPending := false }
    else if a.openingPending then a
    else { a with restartPending := true }

/-- RESUME (R88). -/
def resumeRule (_body : List Byte) (s : State) : Answer :=
  if s.acc.phase = .untimed then .refuse s .wrongState else .done { s with acc := s.acc.resume }

/-- RESUME (R88). -/
def execResume (tag : Byte) (body : List Byte) (s : State) : Host.Outcome State Fault Refusal :=
  .next (s.runCommand Config.pick 0x06 tag body resumeRule)

/-- SET_ALERT: mode and clamped half-period become the pending setting (R122). -/
def setAlertRule (body : List Byte) (s : State) : Answer :=
  match setAlertOf body with
  | some x => ⟨{ s with alert := { s.alert with pendingSetting := some x } }, .ok, u16 x.2⟩
  | none => .refuse s .badValue

/-- SET_ALERT (R122). -/
def execSetAlert (tag : Byte) (body : List Byte) (s : State) : Host.Outcome State Fault Refusal :=
  .next (s.runCommand Config.pick 0x11 tag body setAlertRule)

/-- SET_CAPTURE: protect and the clamped lengths are in force (R140). -/
def setCaptureRule (body : List Byte) (s : State) : Answer :=
  match setCaptureOf body with
  | some (p, pre, tail) =>
    ⟨{ s with capture := { s.capture with protect := p, preLength := pre, tailLength := tail } }, .ok,
      u16 pre ++ u16 tail⟩
  | none => .refuse s .badValue

/-- SET_CAPTURE (R140). -/
def execSetCapture (tag : Byte) (body : List Byte) (s : State) : Host.Outcome State Fault Refusal :=
  .next (s.runCommand Config.pick 0x12 tag body setCaptureRule)

/-- The reporting settings are replaced, the live counter returns to 0, and the slot is emptied when LIVE is off
(R170). -/
def ReportQueue.configure (q : ReportQueue) (r : Reporting) : ReportQueue :=
  { q with
    eventOn := r.eventOn, recordOn := r.recordOn, liveOn := r.liveOn, kindMask := r.kindMask, chanMask := r.chanMask
    livePeriod := r.livePeriod, items := r.items, liveCounter := 0
    liveSlot := if r.liveOn then q.liveSlot else none }

/-- The class enables differ (R169). -/
def ReportQueue.enablesDiffer (q : ReportQueue) (r : Reporting) : Bool :=
  decide (q.eventOn ≠ r.eventOn) || decide (q.recordOn ≠ r.recordOn) || decide (q.liveOn ≠ r.liveOn)

/-- SET_REPORTING: an idle transmitter chooses again when it changes the class enables (R169, R170). DEDUCED (log entry
7): it makes that choice before the command's own reply is formed, an order the spec does not state. -/
def setReportingRule (body : List Byte) (s : State) : Answer :=
  match setReportingOf body with
  | some r =>
    let s' := { s with report := s.report.configure r }
    ⟨if s.report.enablesDiffer r then s'.transmit else s', .ok, u16 r.livePeriod⟩
  | none => .refuse s .badValue

/-- SET_REPORTING (R170). -/
def execSetReporting (tag : Byte) (body : List Byte) (s : State) : Host.Outcome State Fault Refusal :=
  .next (s.runCommand Config.pick 0x13 tag body setReportingRule)

/-- START_CHECK: refused while a check runs or in STALLED, then for its fields (R148). -/
def startCheckRule (body : List Byte) (s : State) : Answer :=
  if s.check.phase ≠ .idle then .refuse s .wrongState
  else if s.port.stalled then .refuse s .wrongState
  else
    match startCheckOf body with
    | some p => .done (s.beginCheck p)
    | none => .refuse s .badValue

/-- START_CHECK (R148, R149). -/
def execStartCheck (tag : Byte) (body : List Byte) (s : State) : Host.Outcome State Fault Refusal :=
  .next (s.runCommand Config.pick 0x1C tag body startCheckRule)

/-- ABORT_CHECK (R156). -/
def abortCheckRule (_body : List Byte) (s : State) : Answer :=
  if s.check.phase = .idle then .refuse s .wrongState else .done (s.cutCheck .aborted s.clock.now)

/-- ABORT_CHECK (R156). -/
def execAbortCheck (tag : Byte) (body : List Byte) (s : State) : Host.Outcome State Fault Refusal :=
  .next (s.runCommand Config.pick 0x1D tag body abortCheckRule)

end Sys2Proof.Machine
end

