-- ==== Sys2Proof/Machine/QueryCommands.lean ====
section
/-! DEFINITION. The commands that read: IDENT, STATUS, SNAPSHOT, READ_RECORD and READ_EVENT. -/

namespace Sys2Proof.Machine

/-- The ten ASCII characters RALIOR AM4 (R178). -/
def partName : List Byte := [0x52, 0x41, 0x4C, 0x49, 0x4F, 0x52, 0x20, 0x41, 0x4D, 0x34]

/-- IDENT: name, design issue 1 and rate code (R178). -/
def identRule (_body : List Byte) (s : State) : Answer := ⟨s, .ok, partName ++ u8 1 ++ u8 s.link.rate⟩

/-- IDENT (R178). -/
def execIdent (tag : Byte) (body : List Byte) (s : State) : Host.Outcome State Fault Refusal :=
  .next (s.runCommand Config.pick 0x01 tag body identRule)

/-! ### STATUS (R179) -/

/-- A field of `n` bytes sent as 0. -/
def zeros (n : Nat) : List Byte := List.replicate n 0

/-- Sample port, 1 byte. -/
def statusPort (s : State) : List Byte := flag s.port.stalled

/-- The entry in force: 0 to 15, FEh for NO_ENTRY, FFh for none. -/
def entryCode : Option Lookup → Nat
  | none => 0xFF
  | some l => l.code

/-- Site clock, 25 bytes. -/
def statusClock (s : State) : List Byte :=
  flag s.clock.isSet ++ stampBytes s.clock.now ++ u8 s.port.frameCounter ++ u8 (dayOfWeek s.clock.now)
    ++ (match s.clock.pendingLoad with
      | some t => flag true ++ stampBytes t
      | none => flag false ++ zeros 10)
    ++ u8 (entryCode s.clock.entryInForce)

/-- Intervals, 11 bytes. -/
def statusIntervals (s : State) : List Byte :=
  u8 s.acc.phase.code
    ++ u8 (s.acc.holdPending.toNat + 2 * s.acc.openingPending.toNat + 4 * s.acc.restartPending.toNat)
    ++ (match s.interval with
      | some iv => flag true ++ u32 iv.number
      | none => flag false ++ zeros 4)
    ++ flag s.store.commitPending ++ u8 s.fifo.length ++ u16 s.recordsLost

/-- Alert line, 11 bytes. -/
def statusAlert (s : State) : List Byte :=
  u8 s.alert.mode.code ++ u16 s.alert.halfPeriod
    ++ (match s.alert.pendingSetting with
      | some (m, h) => flag true ++ u8 m.code ++ u16 h
      | none => flag false ++ zeros 3)
    ++ u16 s.alert.flashCounter ++ u8 (alertCondition s.monitor).code ++ flag s.alert.high

/-- Check engine, 28 bytes. -/
def statusCheck (s : State) : List Byte :=
  u8 s.check.phase.code
    ++ (match s.check.phase, s.check.params with
      | .idle, _ => zeros 6
      | _, none => zeros 6
      | _, some p => u8 p.chan.number ++ u8 p.source.code ++ u16 s.check.counter ++ u16 p.measureTime)
    ++ (match s.check.last with
      | some r => flag true ++ checkRecordBytes r
      | none => flag false ++ zeros 20)

/-- Capture, 4 bytes. -/
def statusCapture (s : State) : List Byte :=
  u8 s.capture.lend.code ++ u8 (s.capture.count Role.isRecording) ++ u8 (s.capture.count Role.isStored)
    ++ u8 (s.capture.count Role.isFree)

/-- The item list field, of eight bytes. DESIGN CHOICE (log entry 26): the bytes after the items, for which R179 states
no value, are a free value. -/
def itemField (items : List LiveItem) : List Byte :=
  items.flatMap (fun i => u8 i.code) ++ (List.range (8 - items.length)).map Config.unstatedByte

/-- Report queue, 23 bytes. -/
def statusReport (s : State) : List Byte :=
  let q := s.report
  u8 q.replies.length ++ u8 q.events.length ++ flag q.liveSlot.isSome ++ u8 q.lostSinceSent ++ u16 q.eventsLost
    ++ u16 q.liveOverwritten ++ u8 (q.eventOn.toNat + 2 * q.recordOn.toNat + 4 * q.liveOn.toNat)
    ++ u16 q.kindMask.toNat ++ u8 q.chanMask.toNat ++ u16 q.livePeriod ++ u8 q.items.length ++ itemField q.items

/-- Link, 8 bytes. -/
def statusLink (s : State) : List Byte :=
  u16 s.link.timeouts ++ u16 s.link.checkErrors ++ u16 s.link.overruns ++ u8 s.link.queue.length ++ u8 s.link.rate

/-- The STATUS reply after its status byte, 111 bytes (R179). -/
def statusBytes (s : State) : List Byte :=
  statusPort s ++ statusClock s ++ statusIntervals s ++ statusAlert s ++ statusCheck s ++ statusCapture s
    ++ statusReport s ++ statusLink s

/-- STATUS (R179). -/
def statusRule (_body : List Byte) (s : State) : Answer := ⟨s, .ok, statusBytes s⟩

/-- STATUS (R179). -/
def execStatus (tag : Byte) (body : List Byte) (s : State) : Host.Outcome State Fault Refusal :=
  .next (s.runCommand Config.pick 0x02 tag body statusRule)

/-! ### Records, events and snapshots -/

/-- SNAPSHOT (R168). -/
def snapshotRule (_body : List Byte) (s : State) : Answer := ⟨s, .ok, liveReportBytes s.liveReport⟩

/-- SNAPSHOT (R168). -/
def execSnapshot (tag : Byte) (body : List Byte) (s : State) : Host.Outcome State Fault Refusal :=
  .next (s.runCommand Config.pick 0x14 tag body snapshotRule)

/-- READ_RECORD: the head record leaves the record FIFO (R99). -/
def readRecordRule (_body : List Byte) (s : State) : Answer :=
  match s.fifo with
  | r :: rest => ⟨{ s with fifo := rest }, .ok, recordBytes r⟩
  | [] => .refuse s .empty

/-- READ_RECORD (R99). -/
def execReadRecord (tag : Byte) (body : List Byte) (s : State) : Host.Outcome State Fault Refusal :=
  .next (s.runCommand Config.pick 0x15 tag body readRecordRule)

/-- READ_EVENT: the oldest notice leaves the event queue with its lost-before count (R163, R165). -/
def readEventRule (_body : List Byte) (s : State) : Answer :=
  match s.report.events with
  | n :: rest => ⟨{ s with report := s.report.afterNotice rest }, .ok, noticeBytes n s.report.lostSinceSent⟩
  | [] => .refuse s .empty

/-- READ_EVENT (R165). -/
def execReadEvent (tag : Byte) (body : List Byte) (s : State) : Host.Outcome State Fault Refusal :=
  .next (s.runCommand Config.pick 0x16 tag body readEventRule)

end Sys2Proof.Machine
end

