-- ==== Sys2Proof/Machine/SettingsCommands.lean ====
section
/-! DEFINITION. The commands on the configuration store (chapters 1, 2, 4 and 5): the edits of the staged copy, COMMIT,
DISCARD and READ_SETTINGS. -/

namespace Sys2Proof.Machine

/-- An edit of the staged copy: refused with WRONG_STATE while a commit is pending, with BAD_VALUE for its fields
(R75). -/
def editRule {α : Type} (read : List Byte → Option α) (write : α → Settings → Settings) (body : List Byte) (s : State) :
    Answer :=
  if s.store.commitPending then .refuse s .wrongState
  else
    match read body with
    | some x => .done { s with store := { s.store with staged := write x s.store.staged } }
    | none => .refuse s .badValue

/-- EDIT_CHANNEL replaces a channel's twelve settings (R76). -/
def writeChannel (x : Chan × ChannelSettings) (c : Settings) : Settings := { c with chan := c.chan.set x.1 x.2 }
/-- EDIT_RANGE replaces a channel's range settings (R18). -/
def writeRange (x : Chan × RangeSettings) (c : Settings) : Settings := { c with range := c.range.set x.1 x.2 }
/-- EDIT_GAINCODES replaces a channel's gain-code table (R19). -/
def writeGainCodes (x : Chan × GainCodes) (c : Settings) : Settings := { c with codes := c.codes.set x.1 x.2 }

/-- A weighting set with one section replaced (R28). -/
def WeightingSet.setSection (w : WeightingSet) (i : Nat) (x : Coeffs) : WeightingSet :=
  match i with
  | 1 => { w with first := x }
  | 2 => { w with second := x }
  | 3 => { w with third := x }
  | _ => w

/-- EDIT_WEIGHTING replaces one section of W1, W2 or W3 (R28). -/
def writeWeighting (x : Nat × Nat × Coeffs) (c : Settings) : Settings :=
  match x.1 with
  | 1 => { c with w1 := c.w1.setSection x.2.1 x.2.2 }
  | 2 => { c with w2 := c.w2.setSection x.2.1 x.2.2 }
  | 3 => { c with w3 := c.w3.setSection x.2.1 x.2.2 }
  | _ => c

/-- EDIT_LIMITS replaces one schedule entry (R65). -/
def writeLimits (x : Fin 16 × ScheduleEntry) (c : Settings) : Settings :=
  { c with schedule := c.schedule.set x.1 x.2 }
/-- EDIT_INTERVAL replaces base and factor (R77). -/
def writeInterval (x : Nat × Nat) (c : Settings) : Settings := { c with base := x.1, factor := x.2 }
/-- EDIT_ACTIVITY replaces mode, polarity and guard (R78). -/
def writeActivity (x : ActivityMode × Bool × Nat) (c : Settings) : Settings :=
  { c with mode := x.1, polarityHigh := x.2.1, guardLength := x.2.2 }

/-- EDIT_CHANNEL (R75, R76). -/
def execEditChannel (tag : Byte) (body : List Byte) (s : State) : Host.Outcome State Fault Refusal :=
  .next (s.runCommand Config.pick 0x07 tag body (editRule editChannelOf writeChannel))

/-- EDIT_RANGE (R18, R75). -/
def execEditRange (tag : Byte) (body : List Byte) (s : State) : Host.Outcome State Fault Refusal :=
  .next (s.runCommand Config.pick 0x08 tag body (editRule editRangeOf writeRange))

/-- EDIT_GAINCODES (R19, R75). -/
def execEditGainCodes (tag : Byte) (body : List Byte) (s : State) : Host.Outcome State Fault Refusal :=
  .next (s.runCommand Config.pick 0x09 tag body (editRule editGainCodesOf writeGainCodes))

/-- EDIT_WEIGHTING (R28, R75). -/
def execEditWeighting (tag : Byte) (body : List Byte) (s : State) : Host.Outcome State Fault Refusal :=
  .next (s.runCommand Config.pick 0x0A tag body (editRule editWeightingOf writeWeighting))

/-- EDIT_LIMITS (R65, R75). -/
def execEditLimits (tag : Byte) (body : List Byte) (s : State) : Host.Outcome State Fault Refusal :=
  .next (s.runCommand Config.pick 0x0B tag body (editRule editLimitsOf writeLimits))

/-- EDIT_INTERVAL (R75, R77). -/
def execEditInterval (tag : Byte) (body : List Byte) (s : State) : Host.Outcome State Fault Refusal :=
  .next (s.runCommand Config.pick 0x0C tag body (editRule editIntervalOf writeInterval))

/-- EDIT_ACTIVITY (R75, R78). -/
def execEditActivity (tag : Byte) (body : List Byte) (s : State) : Host.Outcome State Fault Refusal :=
  .next (s.runCommand Config.pick 0x0D tag body (editRule editActivityOf writeActivity))

/-- COMMIT: pending in MEASURING, at once in UNTIMED and HELD (R79). -/
def commitRule (_body : List Byte) (s : State) : Answer :=
  match s.acc.phase with
  | .measuring => .done { s with store := { s.store with commitPending := true } }
  | .untimed => .done (s.commitAtOnce s.clock.now)
  | .held => .done (s.commitAtOnce s.clock.now)

/-- COMMIT (R79, R81). -/
def execCommit (tag : Byte) (body : List Byte) (s : State) : Host.Outcome State Fault Refusal :=
  .next (s.runCommand Config.pick 0x0E tag body commitRule)

/-- The staged copy becomes the active one and commit pending is cleared (R74, R80). -/
def Store.revert (st : Store) : Store := { st with staged := st.active, commitPending := false }

/-- DISCARD (R80). -/
def discardRule (_body : List Byte) (s : State) : Answer := .done { s with store := s.store.revert }

/-- DISCARD (R80). -/
def execDiscard (tag : Byte) (body : List Byte) (s : State) : Host.Outcome State Fault Refusal :=
  .next (s.runCommand Config.pick 0x0F tag body discardRule)

/-- One copy of a settings group: general 0, channel 1 to 4, weighting 5, schedule 6 (R182, R184). -/
def groupBytes (group : Nat) (c : Settings) : Option (List Byte) :=
  match group with
  | 0 => some (generalBytes c)
  | 1 => some (channelGroupBytes c .ch1)
  | 2 => some (channelGroupBytes c .ch2)
  | 3 => some (channelGroupBytes c .ch3)
  | 4 => some (channelGroupBytes c .ch4)
  | 5 => some (weightingBytes c)
  | 6 => some (scheduleBytes c)
  | _ => none

/-- READ_SETTINGS: both copies of one group with commit pending (R82, R184). -/
def readSettingsRule (body : List Byte) (s : State) : Answer :=
  match groupBytes (field8 body 0) s.store.staged, groupBytes (field8 body 0) s.store.active with
  | some staged, some active => ⟨s, .ok, u8 (field8 body 0) ++ flag s.store.commitPending ++ staged ++ active⟩
  | _, _ => .refuse s .badValue

/-- READ_SETTINGS (R82). -/
def execReadSettings (tag : Byte) (body : List Byte) (s : State) : Host.Outcome State Fault Refusal :=
  .next (s.runCommand Config.pick 0x10 tag body readSettingsRule)

end Sys2Proof.Machine
end

