-- ==== Sys2Proof/Machine/Resets.lean ====
section
/-! DEFINITION. Power-on reset and soft reset (R7, R171, R180). -/

namespace Sys2Proof.Machine

/-- The rate code of the straps (R172). -/
def rateCode (rate1 rate0 : Bool) : Nat := 2 * rate1.toNat + rate0.toNat

/-- POWER_ON_RESET: every unit at its power-on value and the straps read; the capture memory's content is not cleared
(R146), and the model's own queue and free choices go on. DESIGN CHOICE (log entry 25): the spec does not say what the
memory holds after a power-on reset taken while it is lent, or with a write in flight; the model keeps the bytes from
before, without the write. -/
def execPowerOnReset (rate1 rate0 : Bool) (s : State) : Host.Outcome State Fault Refusal :=
  .next
    { State.reset with
      link := { State.reset.link with rate := rateCode rate1 rate0 }
      memory := s.memory
      choice := s.choice
      pending := s.pending }

/-- The report queue's part, first of all: the event queue and the live slot are emptied (R171). -/
def ReportQueue.softReset (q : ReportQueue) : ReportQueue := { q with events := [], liveSlot := none, liveCounter := 0 }

/-- The interval accumulator's part (R72, R100): the interval is abandoned, the flags are cleared, and an opening is
pending if the clock is set. -/
def Accumulator.softReset (clockSet : Bool) (a : Accumulator) : Accumulator :=
  { a with
    phase := if clockSet then .measuring else .untimed
    holdPending := false, restartPending := false, openingPending := clockSet }

/-- The alert line's part (R123). -/
def AlertLine.softReset (a : AlertLine) : AlertLine := { a with high := false, flashCounter := 1 }

/-- The quiet parts of a soft reset, which offer no event: accumulator and store (R100), entry in force (R69), monitor
(R115), alert line (R123), range controllers (R17) and units (R35). -/
def State.resetUnits (s : State) : State :=
  { s with
    interval := none
    acc := s.acc.softReset s.clock.isSet
    clock := { s.clock with entryInForce := none }
    store := s.store.revert
    monitor := s.monitor.mapWith fun _ m => m.softReset
    alert := s.alert.softReset
    range := s.range.mapWith fun _ r => r.restartWindow
    unit := s.unit.mapWith fun _ u => u.clearDetectors }

/-- The effects of a soft reset that offer events, in their order: episodes close and their captures end, channels in
a free order; captures in their tails end; a running check ends (R115, R146, R158, R171). -/
def State.resetOffers (pick : Nat → Nat) (s : State) : State :=
  let s := s.eachFreely pick s.openEpisodes (fun c s => s.closeEpisode c .reset s.clock.now)
  s.resetCapture.cutCheck .reset s.clock.now

/-- SOFT_RESET: the event queue is emptied, the effects offer their events, and the units are reset. No message is
chosen meanwhile, so the reply, formed last, is chosen ahead of the notices even by an idle transmitter, whatever the
EVENT enable (R171, R180). -/
def softResetRule (pick : Nat → Nat) (_body : List Byte) (s : State) : Answer :=
  let s := { s with report := s.report.softReset }
  .done (s.withoutChoosing (State.resetOffers pick)).resetUnits

/-- SOFT_RESET (R180). -/
def execSoftReset (tag : Byte) (body : List Byte) (s : State) : Host.Outcome State Fault Refusal :=
  .next (s.runCommand Config.pick 0x03 tag body (softResetRule Config.pick))

end Sys2Proof.Machine
end

