-- ==== Sys2Proof/Machine/Dispatch.lean ====
section
/-! DEFINITION. One arm for each row of spec/opcode_table.json. -/

namespace Sys2Proof.Machine

/-- The effect of a command on everything but the queue of waiting commands. -/
def exec (i : Instr) (s : State) : Host.Outcome State Fault Refusal :=
  match i with
  | .powerOnReset rate1 rate0 => Sys2Proof.Machine.execPowerOnReset rate1 rate0 s
  | .sampleFrame x1 x2 x3 x4 act gapMicros => Sys2Proof.Machine.execSampleFrame x1 x2 x3 x4 act gapMicros s
  | .blockEnd => Sys2Proof.Machine.execBlockEnd s
  | .windowEnd c => Sys2Proof.Machine.execWindowEnd c s
  | .episodeReleased c => Sys2Proof.Machine.execEpisodeReleased c s
  | .togglePoint => Sys2Proof.Machine.execTogglePoint s
  | .captureTailEnd c => Sys2Proof.Machine.execCaptureTailEnd c s
  | .captureFull c => Sys2Proof.Machine.execCaptureFull c s
  | .checkSettled => Sys2Proof.Machine.execCheckSettled s
  | .checkResult => Sys2Proof.Machine.execCheckResult s
  | .livePoint => Sys2Proof.Machine.execLivePoint s
  | .stallTimeout => Sys2Proof.Machine.execStallTimeout s
  | .frameReceived check => Sys2Proof.Machine.execFrameReceived check s
  | .receiveTimeout => Sys2Proof.Machine.execReceiveTimeout s
  | .unknownKind kind tag body => Sys2Proof.Machine.execUnknownKind kind tag body s
  | .ident tag body => Sys2Proof.Machine.execIdent tag body s
  | .status tag body => Sys2Proof.Machine.execStatus tag body s
  | .softReset tag body => Sys2Proof.Machine.execSoftReset tag body s
  | .setTime tag body => Sys2Proof.Machine.execSetTime tag body s
  | .hold tag body => Sys2Proof.Machine.execHold tag body s
  | .resume tag body => Sys2Proof.Machine.execResume tag body s
  | .editChannel tag body => Sys2Proof.Machine.execEditChannel tag body s
  | .editRange tag body => Sys2Proof.Machine.execEditRange tag body s
  | .editGainCodes tag body => Sys2Proof.Machine.execEditGainCodes tag body s
  | .editWeighting tag body => Sys2Proof.Machine.execEditWeighting tag body s
  | .editLimits tag body => Sys2Proof.Machine.execEditLimits tag body s
  | .editInterval tag body => Sys2Proof.Machine.execEditInterval tag body s
  | .editActivity tag body => Sys2Proof.Machine.execEditActivity tag body s
  | .commit tag body => Sys2Proof.Machine.execCommit tag body s
  | .discard tag body => Sys2Proof.Machine.execDiscard tag body s
  | .readSettings tag body => Sys2Proof.Machine.execReadSettings tag body s
  | .setAlert tag body => Sys2Proof.Machine.execSetAlert tag body s
  | .setCapture tag body => Sys2Proof.Machine.execSetCapture tag body s
  | .setReporting tag body => Sys2Proof.Machine.execSetReporting tag body s
  | .snapshot tag body => Sys2Proof.Machine.execSnapshot tag body s
  | .readRecord tag body => Sys2Proof.Machine.execReadRecord tag body s
  | .readEvent tag body => Sys2Proof.Machine.execReadEvent tag body s
  | .listCaptures tag body => Sys2Proof.Machine.execListCaptures tag body s
  | .readCapture tag body => Sys2Proof.Machine.execReadCapture tag body s
  | .releaseCapture tag body => Sys2Proof.Machine.execReleaseCapture tag body s
  | .lendMemory tag body => Sys2Proof.Machine.execLendMemory tag body s
  | .reclaimMemory tag body => Sys2Proof.Machine.execReclaimMemory tag body s
  | .startCheck tag body => Sys2Proof.Machine.execStartCheck tag body s
  | .abortCheck tag body => Sys2Proof.Machine.execAbortCheck tag body s
  | .memoryWriteDone => Sys2Proof.Machine.execMemoryWriteDone s
  | .memoryReadDone => Sys2Proof.Machine.execMemoryReadDone s
  | .transmitComplete => Sys2Proof.Machine.execTransmitComplete s
  | .byteReceived b => Sys2Proof.Machine.execByteReceived b s

end Sys2Proof.Machine
end

