-- ==== Sys2Proof/Machine/Step.lean ====
section
/-! DEFINITION. One step of the block: the command at the front of the queue is taken, or the oldest command of the link
begins execution (log entries 1, 6 and 19). -/

namespace Sys2Proof.Machine

/-- The command at the front of the queue executes with the rest of the queue behind it. On an empty queue the oldest
command of the link begins execution if it can (R176), and else the block idles. -/
def step (s : State) : Host.Outcome State Fault Refusal :=
  match s.pending with
  | c :: rest => exec c { s with pending := rest }
  | [] =>
    match s.readyCommand with
    | some c => exec c s
    | none => .next s

/-- `s` with the command that a table word spells at the front of its queue; no word spells one. -/
def State.withFetchWord (s : State) (nbits w : Nat) : State :=
  match decodeTableWord nbits w with
  | some c => { s with pending := c :: s.pending }
  | none => s

end Sys2Proof.Machine
end

