-- ==== Sys2Proof/WellFormed.lean ====
section
/-! DEFINITION. Which terms of `Instr` stand for something the block can meet: a link body is at most 1000 bytes
long (R173), and only a kind that is no command kind is an unknown one (R177). -/

namespace Sys2Proof

/-- The command kinds, 01h to 1Dh (R173). -/
def isCommandKind (kind : Byte) : Bool := 1 ≤ kind.toNat && kind.toNat ≤ 0x1D

/-- A body that a link frame can carry (R173, R174). -/
def bodyFits (body : List Byte) : Bool := body.length ≤ Config.maxBody

/-- The well-formed terms of `Instr`. -/
def Instr.wellFormed : Instr → Bool
  | .powerOnReset _ _ => true
  | .sampleFrame _ _ _ _ _ _ => true
  | .blockEnd => true
  | .windowEnd _ => true
  | .episodeReleased _ => true
  | .togglePoint => true
  | .captureTailEnd _ => true
  | .captureFull _ => true
  | .checkSettled => true
  | .checkResult => true
  | .livePoint => true
  | .stallTimeout => true
  | .frameReceived _ => true
  | .receiveTimeout => true
  | .unknownKind kind _ body => !isCommandKind kind && bodyFits body
  | .ident _ body => bodyFits body
  | .status _ body => bodyFits body
  | .softReset _ body => bodyFits body
  | .setTime _ body => bodyFits body
  | .hold _ body => bodyFits body
  | .resume _ body => bodyFits body
  | .editChannel _ body => bodyFits body
  | .editRange _ body => bodyFits body
  | .editGainCodes _ body => bodyFits body
  | .editWeighting _ body => bodyFits body
  | .editLimits _ body => bodyFits body
  | .editInterval _ body => bodyFits body
  | .editActivity _ body => bodyFits body
  | .commit _ body => bodyFits body
  | .discard _ body => bodyFits body
  | .readSettings _ body => bodyFits body
  | .setAlert _ body => bodyFits body
  | .setCapture _ body => bodyFits body
  | .setReporting _ body => bodyFits body
  | .snapshot _ body => bodyFits body
  | .readRecord _ body => bodyFits body
  | .readEvent _ body => bodyFits body
  | .listCaptures _ body => bodyFits body
  | .readCapture _ body => bodyFits body
  | .releaseCapture _ body => bodyFits body
  | .lendMemory _ body => bodyFits body
  | .reclaimMemory _ body => bodyFits body
  | .startCheck _ body => bodyFits body
  | .abortCheck _ body => bodyFits body
  | .memoryWriteDone => true
  | .memoryReadDone => true
  | .transmitComplete => true
  | .byteReceived _ => true

end Sys2Proof
end

