-- ==== Sys2Proof/Safety.lean ====
section
/-! DEFINITION. What the statements speak of: a command that begins and its answer, a step of a block end that is
ready, the bodies a host writes, and the invariants of the block. Every range is the one its rule gives. -/

namespace Sys2Proof.Machine

/-! ### Commands and answers -/

/-- The link command `cmd` begins execution as soon as it is taken, leaving `rest` in the command queue: no block end has
begun, no command is in execution, the reply queue has a place, and it is the oldest command or meets an empty queue
(R176; log entries 4 and 6). -/
def Begins (s : State) (cmd : Command) (rest : List Command) : Prop :=
  s.blockEndBegun = false ∧ s.capture.job = none ∧ s.report.replies.length < Config.replyQueueSize ∧
    (s.link.queue = cmd :: rest ∨ (s.link.queue = [] ∧ rest = []))

/-- `s` with `rest` in its command queue. -/
def State.taken (s : State) (rest : List Command) : State := { s with link := { s.link with queue := rest } }

/-- From report queue `q` to `q'` the reply `m` was formed and nothing else happened: it stands behind every reply and the
message in transmission, and the transmitter is not idle (R161, R169). -/
def Answered (q q' : ReportQueue) (m : Message) : Prop :=
  q' = { q with replies := q'.replies, sending := q'.sending } ∧ q'.sending.isSome = true ∧
    q'.sending.toList ++ q'.replies = q.sending.toList ++ q.replies ++ [m]

/-- The reply `m` is the newest of the messages in transmission and in the reply queue (R161). -/
def RepliedLast (q : ReportQueue) (m : Message) : Prop := (q.sending.toList ++ q.replies).getLast? = some m

/-- A busy transmitter and a place in the event queue: an event that passes the masks becomes its newest notice. -/
def TakesEvents (q : ReportQueue) (n : Nat) : Prop :=
  q.sending.isSome = true ∧ q.events.length + n ≤ Config.eventQueueSize ∧ q.kindMask = BitVec.allOnes 15 ∧
    q.chanMask = BitVec.allOnes 4

/-- The link command of a kind, as a row of the table. -/
def linkCommand (kind tag : Byte) (body : List Byte) : Instr := Command.row ⟨kind, tag, body⟩

/-- The step `t` of a block end is still to be taken and no step that must come before it is left in `l` (R12, R37, R73,
R103, R121, R128, R151, R166). -/
def Ready (s : State) (t : Task) (l : List Task) : Prop :=
  s.blockWork = some l ∧ t ∈ l ∧ ∀ u ∈ l, u.before t = false

/-- The value of a live item of a channel in a state at the end of a block (R167). -/
def itemValue (s : State) (c : Chan) : LiveItem → Int
  | .fLevel => level (s.k c) (s.results c).yF 48
  | .sLevel => level (s.k c) (s.results c).yS 48
  | .leqSoFar => match s.accOf c with
    | some a => level (s.k c) a.sum (48 * (a.active + a.quiet + a.transition))
    | none => -32768
  | .peakSoFar => match s.accOf c with
    | some a => match a.maxPeak with
      | some p => peakLevel (s.k c) p
      | none => -32768
    | none => -32768
  | .gainStep => (s.results c).gain
  | .budgetUsed => match s.accOf c with
    | some a => budgetUsed (s.monitor.get c).budget a.sum
    | none => 0
  | .episodeState => match (s.monitor.get c).phase with
    | .idle => 0
    | .opened => 1
    | .releasing => 2
  | .siteSoFar => match s.accOf c with
    | some a =>
      siteContribution s.store.active.mode (s.k c) a.sumActive (48 * a.active) a.sumQuiet (48 * a.quiet)
    | none => -32767

/-- Section 1 to 3 of weighting set W1 to W3 in a copy of the store. -/
def Settings.sectionOf (x : Settings) (set sec : Nat) : Coeffs :=
  match sec with
  | 1 => (x.weighting set).first
  | 2 => (x.weighting set).second
  | _ => (x.weighting set).third

/-- The raw sample of a channel in a frame. -/
def frameSample (x1 x2 x3 x4 : Sample) : Chan → Sample
  | .ch1 => x1
  | .ch2 => x2
  | .ch3 => x3
  | .ch4 => x4

/-! ### Boundaries, closes and the memory port -/

/-- The block end carries no boundary: no cause of R83, no opening pending, no load (R73, R83, R89). -/
def NoBoundary (s : State) : Prop :=
  let r := s.handed.report
  r.load = false ∧ r.dayChanged = false ∧
    ¬(r.secondChanged = true ∧ r.reading.second % (s.store.active.base * s.store.active.factor) = 0) ∧
    r.scheduleChange = none ∧ s.acc.restartPending = false ∧ s.acc.openingPending = false

/-- One path of a channel runs on the same filter in two copies of the store (R29). -/
def SameFilter (old new : Settings) (c : Chan) (set : ChannelSettings → Nat) : Prop :=
  set (old.chan.get c) = set (new.chan.get c) ∧
    old.weighting (set (old.chan.get c)) = new.weighting (set (new.chan.get c))

/-- Neither the K of a channel nor a filter of its paths differs between two copies of the store (R157). -/
def Undisturbed (old new : Settings) (c : Chan) : Prop :=
  (old.chan.get c).k = (new.chan.get c).k ∧ SameFilter old new c (·.mainSet) ∧ SameFilter old new c (·.peakSet)

/-- The check with parameters `p` runs (R147). -/
def Running (s : State) (p : CheckParams) : Prop := s.check.phase ≠ .idle ∧ s.check.params = some p

/-- The result record of a check that runs in `s` and ends otherwise than by its result (R153, R154). -/
def cutRecord (s : State) (p : CheckParams) (result : CheckEnd) (stagedK : Int) : CheckRecord :=
  { chan := p.chan, source := p.source, result, measured := -32768, expected := -32768, deviation := none
    tolerance := p.tolerance, measureTime := p.measureTime
    blocksMeasured := if s.check.phase = .collecting then s.check.counter else 0
    adjustment := .notCompleted, stagedK }

/-- The open episode `e` of a channel is recorded by capture `d` in region `i` (R130, R131, R134). -/
def RecordedBy (s : State) (c : Chan) (e : Episode) (i : Fin 16) (d : Descriptor) : Prop :=
  (s.monitor.get c).episode = some e ∧ s.capture.recording c = some (i, d, none) ∧ e.captureId = some d.id

/-- What the forced close of a channel's episode offers: EPISODE_CLOSED, with the energy as a level over a second, and for
its recording CAPTURE_STORED, if the close ends it, with the descriptor `stored` gives (R110, R111, R135). -/
def closingNotices (s : State) (c : Chan) (k : Int) (stop : Stamp) (reason : CloseReason)
    (stored : Descriptor → Option Descriptor) : List Notice :=
  match (s.monitor.get c).episode with
  | none => []
  | some e =>
    ⟨some c, stop, .episodeClosed
      ⟨e.number, c, e.start, stop, e.duration, e.maxLevel, e.maxTime, level k e.q 48000, e.captureId, reason⟩⟩ ::
    match s.capture.recording c with
    | some (i, d, none) =>
      if e.captureId = some d.id then (stored d).toList.map fun d' => ⟨some c, stop, .captureStored i d'⟩ else []
    | _ => []

/-- A close outside the block end ends a recording at once if the tail length is 0 (R135). -/
def storedAtOnce (tailLength : Nat) (d : Descriptor) : Option Descriptor := if tailLength = 0 then some d else none

/-- The episode machine of a channel after a close; with no episode open it stands as it was (R110). -/
def MonitorChan.closed (m : MonitorChan) : MonitorChan :=
  match m.episode with
  | some _ => { m with phase := .idle, releaseCounter := 0, episode := none }
  | none => m

/-- From `s` to the regions `rs` the recordings of the open episodes of the channels of `which` began their tails, or
became STORED where the tail length is 0, and no other region changed (R134, R135). -/
def TailsBegun (s : State) (which : Chan → Prop) (rs : Vector Role 16) : Prop :=
  ∀ i : Fin 16,
    (∀ c e d, which c → RecordedBy s c e i d →
      rs[i] = if s.capture.tailLength = 0 then .stored d else .recording d (some s.capture.tailLength)) ∧
    ((∀ c e d, which c → ¬RecordedBy s c e i d) → rs[i] = s.capture.regions[i])

/-- A capture block offered now is accepted (R128, R137, R145). -/
def Accepts (k : Capture) : Prop := k.lend = .owned ∧ k.buffer.length < 4

/-- The descriptor of a recording after a block addressed to it: one block longer, or marked for a block dropped or not
offered (R128, R137, R145). -/
def blockRecorded (k : Capture) (d : Descriptor) : Descriptor :=
  if k.lend = .owned then
    if k.buffer.length < 4 then { d with length := d.length + 1 } else { d with dropout := true }
  else { d with lentGap := true }

/-- A region's role before and after a capture of this age order became FREE: a younger capture moves up one place, and
nothing else changes (R133). -/
def MovesUp (age : Nat) (r r' : Role) : Prop :=
  let up (d : Descriptor) : Descriptor := if age < d.age then { d with age := d.age - 1 } else d
  (∀ d tail, r = .recording d tail → r' = .recording (up d) tail) ∧ (∀ d, r = .stored d → r' = .stored (up d)) ∧
    (r.descriptor = none → r' = r)

/-- With these regions and next capture id, `id` is the id a new capture is given: the first from the next capture id on
that no capture holds, 1 after 65,535 (R133). -/
def AssignedId (regions : Vector Role 16) (next id : Nat) : Prop :=
  let held (n : Nat) : Prop := ∃ (j : Fin 16) (d : Descriptor), regions[j].descriptor = some d ∧ d.id = n
  let after (n : Nat) : Nat := if n < 65535 then n + 1 else 1
  ∃ tries : Nat, id = Nat.repeat after tries next ∧ ¬held id ∧ ∀ j < tries, held (Nat.repeat after j next)

/-- A unit of a channel before and after a commit: a path whose filter changes goes to rest, and with the main path the
detectors clear (R29, R35). -/
def UnitCommitted (old new : Settings) (c : Chan) (u u' : WeightUnit) : Prop :=
  u' = { u with main := u'.main, peak := u'.peak, yF := u'.yF, yS := u'.yS, fCount := u'.fCount, sCount := u'.sCount } ∧
  (SameFilter old new c (·.mainSet) →
    u'.main = u.main ∧ u'.yF = u.yF ∧ u'.yS = u.yS ∧ u'.fCount = u.fCount ∧ u'.sCount = u.sCount) ∧
  (¬SameFilter old new c (·.mainSet) →
    u'.main = .rest ∧ u'.yF = 0 ∧ u'.yS = 0 ∧ u'.fCount = 0 ∧ u'.sCount = 0) ∧
  (SameFilter old new c (·.peakSet) → u'.peak = u.peak) ∧
  (¬SameFilter old new c (·.peakSet) → u'.peak = .rest)

/-- From `s` to `t` the staged copy came into force: the guard, the range controllers and the units took it, a check that
it disturbs ended with CONFIG_CHANGED, any other stands as it was, and `ns` are the notices offered (R16, R29, R81, R91,
R154, R157). -/
def CommitTaken (s t : State) (stamp : Stamp) (atBoundary : Bool) (ns : List Notice) : Prop :=
  let old := s.store.active
  let new := s.store.staged
  let applied : Notice := ⟨none, stamp, .configApplied atBoundary⟩
  let ctl (c : Chan) : RangeCtl := (s.range.get c).commit (old.range.get c) (new.range.get c) (new.codes.get c)
  t.acc.guardRemaining =
    (if old.mode = new.mode ∧ old.polarityHigh = new.polarityHigh ∧ old.guardLength = new.guardLength then
      s.acc.guardRemaining
    else new.guardLength) ∧
  ((∀ p, Running s p → Undisturbed old new p.chan) →
    t.check = s.check ∧ ns = [applied] ∧
      ∀ c, t.range.get c = ctl c ∧ UnitCommitted old new c (s.unit.get c) (t.unit.get c)) ∧
  ∀ p, Running s p → ¬Undisturbed old new p.chan →
    let r := cutRecord s p .configChanged (new.chan.get p.chan).k
    t.check = ⟨.idle, none, 0, 0, some r⟩ ∧ ns = [applied, ⟨some p.chan, stamp, .checkDone r⟩] ∧
      t.range.get p.chan = { ctl p.chan with frozen := false } ∧
      t.unit.get p.chan =
        { s.unit.get p.chan with main := .rest, peak := .rest, yF := 0, yS := 0, fCount := 0, sCount := 0 } ∧
      ∀ c, c ≠ p.chan → t.range.get c = ctl c ∧ UnitCommitted old new c (s.unit.get c) (t.unit.get c)

/-- The accumulators of a channel before and after a block of class `cls` with results `x`, under K and h0 of the
channel (R53, R93, R94, R95, R96). -/
def BlockAdded (k : Int) (h0 : Nat) (x : BlockResults) (cls : BlockClass) (ac ac' : ChannelAcc) : Prop :=
  let top : Nat := 4294967295
  ac'.limits = ac.limits ∧ ac'.gainChanges = min top (ac.gainChanges + x.gainChanges) ∧ ac'.finalGain = x.gain ∧
  (cls = .excluded →
    ac' = { ac with excluded := ac.excluded + 1, gainChanges := ac'.gainChanges, finalGain := x.gain }) ∧
  (cls ≠ .excluded →
    ac'.sum = ac.sum + x.energy ∧ ac'.excluded = ac.excluded ∧
    ac'.sumActive = (if cls = .active then ac.sumActive + x.energy else ac.sumActive) ∧
    ac'.active = (if cls = .active then ac.active + 1 else ac.active) ∧
    ac'.sumQuiet = (if cls = .quiet then ac.sumQuiet + x.energy else ac.sumQuiet) ∧
    ac'.quiet = (if cls = .quiet then ac.quiet + 1 else ac.quiet) ∧
    ac'.transition = (if cls = .transition then ac.transition + 1 else ac.transition) ∧
    ac'.maxPeak = some (max (ac.maxPeak.getD 0) x.peak) ∧
    ac'.maxS = (if x.sSettled = true then some (max (ac.maxS.getD 0) x.yS) else ac.maxS) ∧
    ac'.overloadBlocks = min top (ac.overloadBlocks + (if x.overload = true then 1 else 0)) ∧
    ac'.settlingSamples = min top (ac.settlingSamples + x.settlingSamples) ∧
    ac'.saturations = min top (ac.saturations + x.saturations) ∧
    let sameHist : Prop :=
      ac'.bins = ac.bins ∧ ac'.underflow = ac.underflow ∧ ac'.overflow = ac.overflow ∧ ac'.histSamples = ac.histSamples
    (x.fSettled = false →
      ac'.fSettling = true ∧ ac'.maxF = ac.maxF ∧ ac'.minF = ac.minF ∧ ac'.samplingCounter = ac.samplingCounter ∧
        sameHist) ∧
    (x.fSettled = true →
      ac'.fSettling = ac.fSettling ∧ ac'.maxF = some (max (ac.maxF.getD 0) x.yF) ∧
      ac'.minF = some (min (ac.minF.getD x.yF) x.yF) ∧
      (ac.samplingCounter + 1 < 100 → ac'.samplingCounter = ac.samplingCounter + 1 ∧ sameHist) ∧
      (100 ≤ ac.samplingCounter + 1 →
        let l := level k x.yF 48
        ac'.samplingCounter = 0 ∧ ac'.histSamples = min top (ac.histSamples + 1) ∧
        (l < h0 → ac'.underflow = ac.underflow + 1 ∧ ac'.overflow = ac.overflow ∧ ac'.bins = ac.bins) ∧
        ((h0 : Int) + 12000 ≤ l →
          ac'.underflow = ac.underflow ∧ ac'.overflow = ac.overflow + 1 ∧ ac'.bins = ac.bins) ∧
        ((h0 : Int) ≤ l → l < (h0 : Int) + 12000 →
          ac'.underflow = ac.underflow ∧ ac'.overflow = ac.overflow ∧
          ∀ i : Fin 240, ac'.bins[i] =
            if (h0 : Int) + 50 * i.val ≤ l ∧ l < (h0 : Int) + 50 * i.val + 50 then ac.bins[i] + 1 else ac.bins[i]))))

/-- From `s` to `t` an idle transmitter made its choice: the first available of the oldest reply, with EVENT on the
oldest notice, with RECORD on the head record, and the live report leaves its store and is in transmission; with none, or
with a message in transmission, nothing happened (R163, R169). -/
def Selected (s t : State) : Prop :=
  let q := s.report
  let event : Prop := q.eventOn = true ∧ q.events ≠ []
  let record : Prop := q.recordOn = true ∧ s.fifo ≠ []
  (q.sending.isSome = true → t = s) ∧
  (q.sending = none →
    (∀ m ms, q.replies = m :: ms → t = { s with report := { q with replies := ms, sending := some m } }) ∧
    (q.replies = [] →
      (event → ∀ n ns, q.events = n :: ns →
        t = { s with
          report := { q with
            events := ns, lostSinceSent := 0, sending := some ⟨0x70, 0, noticeBytes n q.lostSinceSent⟩ } }) ∧
      (¬event → record → ∀ r rs, s.fifo = r :: rs →
        t = { s with fifo := rs, report := { q with sending := some ⟨0x71, 0, recordBytes r⟩ } }) ∧
      (¬event → ¬record →
        (∀ r, q.liveSlot = some r →
          t = { s with report := { q with liveSlot := none, sending := some ⟨0x72, 0, liveReportBytes r⟩ } }) ∧
        (q.liveSlot = none → t = s))))

/-- With buffer and job as they stand and no operation in flight, the arbiter of a memory that is not lent begins `op`
and leaves `rest` in the buffer: a write with three entries, else a waiting read, else a write (R138). A read waits while
the job has a position left and no entry is addressed to it (R139). -/
def NextOperation (buffer : List BufferEntry) (job : Option ReadJob) (op : Option MemoryOp) (rest : List BufferEntry) :
    Prop :=
  let waits (i : Fin 16) (p : Nat) : Prop :=
    ∃ j, job = some j ∧ j.got.length < j.count ∧ i = j.region ∧ p = (j.start + (j.first + j.got.length)) % 10000 ∧
      ∀ e ∈ buffer, ¬(e.region = i ∧ e.position = p)
  (∀ e es, buffer = e :: es → 3 ≤ buffer.length ∨ (∀ i p, ¬waits i p) → op = some (.write e) ∧ rest = es) ∧
    (∀ i p, waits i p → buffer.length < 3 → op = some (.read i p) ∧ rest = buffer) ∧
    (buffer = [] → (∀ i p, ¬waits i p) → op = none ∧ rest = [])

/-! ### Bodies as a host writes them (R183) -/

/-- EDIT_LIMITS: the index, then the entry. -/
def editLimitsBody (i : Fin 16) (e : ScheduleEntry) : List Byte := u8 i.val ++ scheduleEntryBytes e
/-- EDIT_WEIGHTING: the set, the section, then the coefficients. -/
def editWeightingBody (set sec : Nat) (x : Coeffs) : List Byte := u8 set ++ u8 sec ++ coeffsBytes x
/-- EDIT_ACTIVITY. -/
def editActivityBody (mode : ActivityMode) (polarityHigh : Bool) (guard : Nat) : List Byte :=
  u8 mode.code ++ flag polarityHigh ++ u16 guard
/-- START_CHECK. -/
def startCheckBody (p : CheckParams) : List Byte :=
  u8 p.chan.number ++ u8 p.source.code ++ i16 p.expected ++ u16 p.tolerance ++ u16 p.measureTime ++ flag p.adjust
    ++ u32 p.amplitude ++ u8 p.gain
/-- SET_REPORTING, with any bytes after the items. -/
def setReportingBody (r : Reporting) (period : Nat) (fill : List Byte) : List Byte :=
  u8 (r.eventOn.toNat + 2 * r.recordOn.toNat + 4 * r.liveOn.toNat) ++ u16 r.kindMask.toNat ++ u8 r.chanMask.toNat
    ++ u16 period ++ u8 r.items.length ++ r.items.flatMap (fun i => u8 i.code) ++ fill

/-! ### Legal settings (R18, R19, R25, R64, R76, R77, R78) -/

/-- A signed 32-bit value. -/
def inSigned32 (x : Int) : Prop := -2 ^ 31 ≤ x ∧ x ≤ 2 ^ 31 - 1

def Coeffs.legal (c : Coeffs) : Prop :=
  inSigned32 c.b0 ∧ inSigned32 c.b1 ∧ inSigned32 c.b2 ∧ inSigned32 c.a1 ∧ inSigned32 c.a2

def WeightingSet.legal (w : WeightingSet) : Prop := w.first.legal ∧ w.second.legal ∧ w.third.legal

/-- A limit that is present lies in 0 to 20,000 (R64). -/
def limitLegal : Option Nat → Prop
  | none => True
  | some l => l ≤ 20000

def ScheduleEntry.legal (e : ScheduleEntry) : Prop :=
  e.startMinute ≤ 1439 ∧ e.endMinute ≤ 1440 ∧ e.startMinute < e.endMinute ∧ limitLegal e.leq ∧ limitLegal e.lmax ∧
    limitLegal e.peak

/-- One copy of the configuration store holds only values its commands accept. -/
structure Settings.Legal (s : Settings) : Prop where
  base : s.base = 1 ∨ s.base = 10 ∨ s.base = 60
  factor : 1 ≤ s.factor ∧ s.factor ≤ 60
  guard : s.guardLength ≤ 5000
  chan : ∀ c, (s.chan.get c).valid = true
  range : ∀ c, (s.range.get c).valid = true
  codes : ∀ c, (s.codes.get c).valid = true
  weighting : s.w1.legal ∧ s.w2.legal ∧ s.w3.legal
  schedule : ∀ i : Fin 16, (s.schedule[i]).legal

/-! ### Invariants -/

/-- The capture memory is in canonical form. -/
def MemoryHeld (s : State) : Prop := Memory.wf s.memory = true

/-- Both copies of the configuration store are legal (R74, R75). -/
def SettingsHeld (s : State) : Prop := s.store.staged.Legal ∧ s.store.active.Legal

/-- Every store holds no more than its rule allows, and one reply place is reserved exactly while a READ_CAPTURE is in
execution (R98, R137, R160,
R161, R163, R175, R176). -/
structure StoresHeld (s : State) : Prop where
  records : s.fifo.length ≤ 128
  events : s.report.events.length ≤ 32
  replies : s.report.replies.length + s.report.reserved ≤ 4
  reserved : s.report.reserved = if s.capture.job.isSome then 1 else 0
  commands : s.link.queue.length ≤ 4
  buffer : s.capture.buffer.length ≤ 4

/-- A range controller against its active settings (R8, R9, R14, R15, R16). -/
structure RangeCtl.Held (set : RangeSettings) (codes : GainCodes) (r : RangeCtl) : Prop where
  gainLow : set.gMin ≤ r.gain
  gainHigh : r.gain ≤ set.gMax
  lines : r.lines = codes.code r.gain
  holdOff : r.holdOff ≤ set.holdOff
  settling : r.settling ≤ set.settle
  window : r.windowCounter < set.window
  peak : r.windowPeak ≤ 8388608
  frozenWindow : r.frozen = true → r.windowCounter = 0 ∧ r.windowPeak = 0

/-- Every range controller keeps within its active settings, which are legal. -/
def RangesHeld (s : State) : Prop :=
  SettingsHeld s ∧ ∀ c, (s.range.get c).Held (s.store.active.range.get c) (s.store.active.codes.get c)

def SectionState.legal (x : SectionState) : Prop := inSigned32 x.x1 ∧ inSigned32 x.x2 ∧ inSigned32 x.y1 ∧ inSigned32 x.y2
def FilterPath.legal (p : FilterPath) : Prop := p.first.legal ∧ p.second.legal ∧ p.third.legal

/-- A weighting and detector unit with `n` samples of its block taken (R21, R31, R33). -/
structure WeightUnit.Held (u : WeightUnit) (n : Nat) : Prop where
  raw : u.raw.length = n
  energy : u.energy ≤ n * 2 ^ 46
  checkEnergy : u.checkEnergy ≤ n * 2 ^ 46
  blockPeak : u.blockPeak ≤ 2 ^ 31
  saturations : u.saturations ≤ 6 * n
  lastValid : -2 ^ 31 ≤ u.lastValid ∧ u.lastValid ≤ 2 ^ 31 - 256
  main : u.main.legal
  peak : u.peak.legal
  yF : u.yF ≤ 48 * 2 ^ 46
  yS : u.yS ≤ 48 * 2 ^ 46
  fCount : u.fCount ≤ 1000
  sCount : u.sCount ≤ 5000

/-- The steps of a block end still to be taken. -/
def State.dueSteps (s : State) : List Task := s.blockWork.getD []

/-- How many samples of its block a channel's unit holds: all 48 while its step of a block end is still to be taken. -/
def State.samplesHeld (s : State) (c : Chan) : Nat :=
  if .weigh c ∈ s.dueSteps then 48 else s.port.frameCounter

/-- Every unit keeps within the ranges of its state (R1, R21). -/
structure UnitsHeld (s : State) : Prop where
  counter : s.port.frameCounter < 48
  counterDue : s.blockWork.isSome = true → s.port.frameCounter = 0
  steps : s.dueSteps.Sublist allTasks
  amplitude : ∀ p, s.check.params = some p → p.source = .internal → p.amplitude ≤ 8000000
  units : ∀ c, (s.unit.get c).Held (s.samplesHeld c)

/-- The site clock holds a date and time of the calendar, and so does a pending load (R55). -/
def ClockHeld (s : State) : Prop :=
  s.clock.now.valid = true ∧ ∀ t, s.clock.pendingLoad = some t → t.valid = true

/-- The measurement state against the open interval, the store and the monitor (R72, R75, R102, R112, R119). -/
structure MeasurementHeld (s : State) : Prop where
  interval : s.interval.isSome = true ↔ s.acc.phase = .measuring ∧ s.acc.openingPending = false
  commit : s.store.commitPending = true → s.acc.phase = .measuring
  thresholds : ∀ c, (s.monitor.get c).budget.isSome = true ∨ (s.monitor.get c).lmax.isSome = true ∨
    (s.monitor.get c).peak.isSome = true → s.interval.isSome = true
  marks : ∀ c, (s.monitor.get c).warned = true ∨ (s.monitor.get c).spent = true →
    (s.monitor.get c).budget.isSome = true
  episode : ∀ c, (s.monitor.get c).episode.isSome = true ↔ (s.monitor.get c).phase ≠ .idle
  limit : ∀ c, (s.monitor.get c).episode.isSome = true → (s.monitor.get c).lmax.isSome = true

/-- The alert line's counter lies in 1 to the half-period in force (R101, R120, R122). -/
structure AlertHeld (s : State) : Prop where
  low : 1 ≤ s.alert.flashCounter
  high : s.alert.flashCounter ≤ s.alert.halfPeriod
  period : 50 ≤ s.alert.halfPeriod ∧ s.alert.halfPeriod ≤ 2000
  pending : ∀ m h, s.alert.pendingSetting = some (m, h) → 50 ≤ h ∧ h ≤ 2000

/-- The live counter and the reporting settings (R160, R166, R170). -/
structure LiveHeld (s : State) : Prop where
  counter : s.report.liveCounter < s.report.livePeriod
  period : 100 ≤ s.report.livePeriod ∧ s.report.livePeriod ≤ 10000
  items : 1 ≤ s.report.items.length ∧ s.report.items.length ≤ 8 ∧ s.report.items.Nodup
  slot : s.report.liveSlot.isSome = true → s.report.liveOn = true

/-- Each channel has exactly one ring region and at most one recording (R127). -/
def RolesHeld (s : State) : Prop :=
  ∀ c, s.capture.count (Role.isRingOf c) = 1 ∧ s.capture.count (Role.isRecordingOf c) ≤ 1

/-- Every position the memory port can be given lies in its region (R126, R127, R136). -/
structure PositionsHeld (s : State) : Prop where
  heads : ∀ c, (s.capture.rings.get c).head < 10000
  starts : ∀ i : Fin 16, ∀ d, (s.capture.regions[i]).descriptor = some d → d.start < 10000
  buffer : ∀ e ∈ s.capture.buffer, e.position < 10000
  write : ∀ e, s.capture.inFlight = some (.write e) → e.position < 10000
  read : ∀ r p, s.capture.inFlight = some (.read r p) → p < 10000

/-- The parameters, the block counter and the check sum exist only while a check runs, and the range controller of its
channel alone is frozen (R15, R147). -/
structure CheckHeld (s : State) : Prop where
  params : s.check.params.isSome = true ↔ s.check.phase ≠ .idle
  idle : s.check.phase = .idle → s.check.counter = 0 ∧ s.check.sum = 0
  counter : s.check.phase = .settling → s.check.counter < 1000
  frozen : ∀ c, (s.range.get c).frozen = (s.check.on c).isSome

end Sys2Proof.Machine
end

