-- ==== Sys2Proof/Certificates/Slice0/Obligations.lean ====
section
/-! DEFINITION. The statements for the provers. Each docstring names the rules of spec/ it formalises, or the log entry
of a choice that is the model's own. -/

open Sys2Proof Sys2Proof.Machine

/-! ### The queue of commands and reset -/

/-- R176: a step takes the command at the front of the queue and executes it with the rest of the queue behind it. On an
empty queue the oldest command of the command queue begins execution, with none in execution and a place in the reply
queue; otherwise the block idles.
The queue of what the environment sends, and that it goes first, are log entries 1 and 6. -/
def Obligations.StepTakesFrontCommand : Prop :=
  ∀ s : State,
    (∀ c rest, s.pending = c :: rest → step s = exec c { s with pending := rest }) ∧
    (s.pending = [] →
      (∀ cmd rest, s.link.queue = cmd :: rest → s.capture.job = none → s.report.replies.length < 4 →
        step s = exec (linkCommand cmd.kind cmd.tag cmd.body) s) ∧
      (s.link.queue = [] ∨ s.capture.job.isSome = true ∨ 4 ≤ s.report.replies.length → step s = .next s))

/-- R7, R8, R9, R21, R55, R72, R101, R123, R127, R147, R160, R172, R174, R175: POWER_ON_RESET completes in every state
with every unit at its power-on value and the rate of the straps; the capture memory is not cleared (R146).
That the memory keeps its bytes also when it is lent or a write is in flight is the model's choice, log entry 25. -/
def Obligations.PowerOnResetValues : Prop :=
  ∀ (rate1 rate0 : Bool) (s : State), ∃ t, exec (.powerOnReset rate1 rate0) s = .next t ∧
    t.port.stalled = false ∧ t.port.frameCounter = 0 ∧ t.blockWork = none ∧
    (∀ c, t.range.get c = ⟨0, 0, 0, 0, 24, false, 0, false, 0, 0⟩) ∧
    (∀ c, t.unit.get c =
      ⟨0, ⟨⟨0, 0, 0, 0⟩, ⟨0, 0, 0, 0⟩, ⟨0, 0, 0, 0⟩⟩, ⟨⟨0, 0, 0, 0⟩, ⟨0, 0, 0, 0⟩, ⟨0, 0, 0, 0⟩⟩, 0, 0, 0, 0, [],
        0, 0, 0, 0⟩) ∧
    t.clock = ⟨false, ⟨2000, 1, 1, 0, 0⟩, none, none⟩ ∧
    t.acc.phase = .untimed ∧ t.acc.holdPending = false ∧ t.acc.openingPending = false ∧
    t.acc.restartPending = false ∧ t.acc.nextNumber = 1 ∧ t.acc.carriedConfig = false ∧
    t.acc.carriedClock = false ∧ (∀ c, t.acc.carriedGain.get c = 0) ∧ t.acc.prevAct = none ∧
    t.acc.guardRemaining = 2000 ∧ t.interval = none ∧ t.fifo = [] ∧ t.recordsLost = 0 ∧
    (∀ c, let m := t.monitor.get c
      m.budget = none ∧ m.warned = false ∧ m.spent = false ∧ m.lmax = none ∧ m.releaseTime = 0 ∧ m.peak = none ∧
        m.peaksOver = 0 ∧ m.episodesOpened = 0 ∧ m.phase = .idle ∧ m.releaseCounter = 0 ∧ m.episode = none ∧
        m.peakHoldOff = 0 ∧ m.peaksSuppressed = 0) ∧
    t.nextEpisode = 1 ∧ t.alert = ⟨.off, 500, 1, false, none⟩ ∧
    (∀ c, t.capture.regions[(⟨c.number - 1, by cases c <;> decide⟩ : Fin 16)] = .ring c) ∧
    (∀ i : Fin 16, 4 ≤ i.val → t.capture.regions[i] = .free) ∧
    (∀ c, t.capture.rings.get c = ⟨0, 0, none⟩) ∧ t.capture.nextId = 1 ∧ t.capture.protect = false ∧
    t.capture.preLength = 2000 ∧ t.capture.tailLength = 2000 ∧ t.capture.buffer = [] ∧ t.capture.inFlight = none ∧
    t.capture.lend = .owned ∧ t.capture.job = none ∧
    t.check = ⟨.idle, none, 0, 0, none⟩ ∧
    t.report.replies = [] ∧ t.report.reserved = 0 ∧ t.report.events = [] ∧ t.report.lostSinceSent = 0 ∧
    t.report.eventsLost = 0 ∧ t.report.liveSlot = none ∧ t.report.liveOverwritten = 0 ∧ t.report.liveCounter = 0 ∧
    t.report.eventOn = false ∧ t.report.recordOn = false ∧ t.report.liveOn = false ∧
    (∀ i < 15, t.report.kindMask.getLsbD i = true) ∧ (∀ i < 4, t.report.chanMask.getLsbD i = true) ∧
    t.report.livePeriod = 1000 ∧ t.report.items = [.fLevel, .leqSoFar, .gainStep, .budgetUsed] ∧
    t.report.sending = none ∧
    t.link = ⟨2 * rate1.toNat + rate0.toNat, .hunt, 0, 0, 0, []⟩ ∧
    t.memory = s.memory ∧ t.pending = s.pending

/-- R20, R25, R64, R74, R76, R77, R78 and section 1.4: POWER_ON_RESET sets every setting in both copies to its default and
clears commit pending. -/
def Obligations.PowerOnResetSettings : Prop :=
  ∀ (rate1 rate0 : Bool) (s : State), ∃ t, exec (.powerOnReset rate1 rate0) s = .next t ∧
    t.store.commitPending = false ∧
    ∀ x : Settings, x = t.store.staged ∨ x = t.store.active →
      x.base = 60 ∧ x.factor = 15 ∧ x.mode = .off ∧ x.polarityHigh = true ∧ x.guardLength = 2000 ∧
      (∀ c, x.chan.get c =
        { enable := true, k := 0, mainSet := 0, peakSet := 0, limitOffset := 0, h0 := 2000, n1 := 10, n2 := 50
          n3 := 90, warnPercent := 80, hysteresis := 300, releaseTime := 1000 }) ∧
      (∀ c, x.range.get c =
        { gMin := 0, gMax := 4, tImm := 7800000, tHi := 6000000, tLo := 1400000, window := 500, holdOff := 50
          settle := 24 }) ∧
      (∀ c, ∀ g ≤ 4, (x.codes.get c).code g = g) ∧
      (∀ w : WeightingSet, w = x.w1 ∨ w = x.w2 ∨ w = x.w3 →
        ∀ q : Coeffs, q = w.first ∨ q = w.second ∨ q = w.third → q = ⟨2 ^ 28, 0, 0, 0, 0⟩) ∧
      ∀ i : Fin 16, x.schedule[i] = ⟨false, 0, 0, 1440, none, none, none⟩

/-- The state after reset has every invariant of the statements below. -/
def Obligations.ResetHoldsInvariants : Prop :=
  MemoryHeld State.reset ∧ SettingsHeld State.reset ∧ StoresHeld State.reset ∧ RangesHeld State.reset ∧
    UnitsHeld State.reset ∧ ClockHeld State.reset ∧ MeasurementHeld State.reset ∧ AlertHeld State.reset ∧
    LiveHeld State.reset ∧ RolesHeld State.reset ∧ PositionsHeld State.reset ∧ CheckHeld State.reset

/-! ### Invariants that every step keeps -/

/-- The canonical form of the capture memory (R126, R145; log entry 10).
That memory is such a list is the model's form. -/
def Obligations.MemoryHeldByStep : Prop :=
  ∀ s t : State, MemoryHeld s → step s = .next t → MemoryHeld t

/-- Both copies of the store hold only legal settings (R18, R19, R65, R74 to R78, R153). -/
def Obligations.SettingsHeldByStep : Prop :=
  ∀ s t : State, SettingsHeld s → step s = .next t → SettingsHeld t

/-- No store holds more than its rule allows, and a reply always has a place (R98, R137, R161, R163, R175, R176). -/
def Obligations.StoresHeldByStep : Prop :=
  ∀ s t : State, StoresHeld s → step s = .next t → StoresHeld t

/-- The gain step of each channel lies within its active range, the lines show its code, and the counters lie in their
ranges (R8, R9, R10, R14, R15, R16). -/
def Obligations.RangesHeldByStep : Prop :=
  ∀ s t : State, RangesHeld s → step s = .next t → RangesHeld t

/-- Every item of a unit's state lies in its range, and a block always covers 48 samples (R1, R21, R27, R31, R33). -/
def Obligations.UnitsHeldByStep : Prop :=
  ∀ s t : State, UnitsHeld s → step s = .next t → UnitsHeld t

/-- The clock and a pending load always hold a date and time of the calendar; the flash counter lies in 1 to the
half-period in force; the live counter lies below the live period and the item list holds 1 to 8 distinct items (R55,
R57, R58, R61, R120, R122, R123, R160, R166, R170). -/
def Obligations.CountersHeldByStep : Prop :=
  ∀ s t : State, ClockHeld s ∧ AlertHeld s ∧ LiveHeld s → step s = .next t → ClockHeld t ∧ AlertHeld t ∧ LiveHeld t

/-- An interval is open exactly in MEASURING with no opening pending; a commit is pending only in MEASURING; thresholds,
marks and episodes exist only where the rules allow (R72, R75, R102, R112, R119). -/
def Obligations.MeasurementHeldByStep : Prop :=
  ∀ s t : State, MeasurementHeld s → step s = .next t → MeasurementHeld t

/-- Each channel has exactly one region in the role RING and at most one in the role RECORDING (R127); a check's
parameters, counter and sum exist only while it runs, and its channel alone is frozen (R15, R147). -/
def Obligations.RolesAndCheckHeldByStep : Prop :=
  ∀ s t : State, step s = .next t → (RolesHeld s → RolesHeld t) ∧ (CheckHeld s → CheckHeld t)

/-- Every position stays in its region (R126), and so the block never stops: every step answers a next state (the spec
names no stop). -/
def Obligations.PositionsHeldByStep : Prop :=
  ∀ s : State, PositionsHeld s → ∃ t, step s = .next t ∧ PositionsHeld t

/-! ### Rules over all commands -/

/-- R126, R138, R145, R146: a byte of the capture memory changes only by the completion of a write and by a reclaim.
That the outside reader's writes come about at the reclaim is log entry 10, and that a power-on reset makes none, of a
memory lent or with a write in flight, is log entry 25; both are the model's choices. -/
def Obligations.OnlyPortAndReclaimWriteMemory : Prop :=
  ∀ (i : Instr) (s t : State), exec i s = .next t → t.memory ≠ s.memory →
    i = .memoryWriteDone ∨ ∃ tag body, i = .reclaimMemory tag body

/-- R74: the active configuration changes only at a block end with a commit pending, by COMMIT, or at power-on reset. -/
def Obligations.OnlyCommitChangesActive : Prop :=
  ∀ (i : Instr) (s t : State), exec i s = .next t → t.store.active ≠ s.store.active →
    (s.blockWork.isSome = true ∧ s.store.commitPending = true) ∨ (∃ tag body, i = .commit tag body) ∨
      ∃ rate1 rate0, i = .powerOnReset rate1 rate0

/-- R55, R56, R59, R63: site time stands still except at a block end, and it moves to the advance of the reading or to
the pending load. -/
def Obligations.OnlyBlockEndsMoveClock : Prop :=
  ∀ (i : Instr) (s t : State), exec i s = .next t → s.dueSteps.Sublist allTasks → t.clock.now ≠ s.clock.now →
    (∃ rate1 rate0, i = .powerOnReset rate1 rate0) ∨
      (.clock ∈ s.dueSteps ∧
        ((s.clock.pendingLoad = none ∧ t.clock.now = advance s.clock.now) ∨
          s.clock.pendingLoad = some t.clock.now))

/-- The block stops only at a memory position that does not exist (R126, log entry 20), and no command is refused. -/
def Obligations.StopsOnlyOutsideMemory : Prop :=
  ∀ (i : Instr) (s : State), (∀ r, exec i s ≠ .refused r) ∧
    ∀ f, exec i s = .fault f →
      (i = .memoryWriteDone ∨ i = .memoryReadDone) ∧ ∃ p, 10000 ≤ p ∧ f = .outsideCaptureMemory p

/-! ### Sample port, range controllers and units -/

/-- R1, R3, R10, R11, R22, R23, R24, R27, R30, R31, R32, R91, R150: in RUNNING with no block end due, SAMPLE_FRAME counts
the frame, samples ACT in frame 0, hands each channel its sample, and after frame 47 the block end is due. Each unit
normalises the raw sample at its channel's step, the held value for a settling sample, or the test value. Nothing else
changes.
A block end still due is completed first, in RUNNING and in STALLED (log entry 2). -/
def Obligations.SampleFrameIsHandled : Prop :=
  (∀ (x1 x2 x3 x4 : Sample) (act : Bool) (gap : Nat) (s t : State), exec .blockEnd s = .next t →
    t.blockWork = none ∧
      exec (.sampleFrame x1 x2 x3 x4 act gap) s = exec (.sampleFrame x1 x2 x3 x4 act gap) t) ∧
  ∀ (x1 x2 x3 x4 : Sample) (act : Bool) (gap : Nat) (s : State), s.blockWork = none → s.port.stalled = false →
    ∃ t, exec (.sampleFrame x1 x2 x3 x4 act gap) s = .next t ∧
      t = { s with port := t.port, range := t.range, unit := t.unit, blockWork := t.blockWork } ∧
      t.port.stalled = false ∧
      t.port.frameCounter = (if s.port.frameCounter < 47 then s.port.frameCounter + 1 else 0) ∧
      t.port.actSample = (if s.port.frameCounter = 0 then act else s.port.actSample) ∧
      t.blockWork = (if s.port.frameCounter < 47 then none else some allTasks) ∧
      ∀ c, let x := (frameSample x1 x2 x3 x4 c).toInt
        let r := s.range.get c
        let u := s.unit.get c
        let wm := s.store.active.weighting (s.store.active.chan.get c).mainSet
        let wp := s.store.active.weighting (s.store.active.chan.get c).peakSet
        t.range.get c = r.sample (s.store.active.range.get c) (s.store.active.codes.get c) x ∧
        ∃ a : Int,
          (0 < r.settling → a = u.lastValid) ∧
          (r.settling = 0 → s.check.internalOn c = none → a = x * 4 ^ (4 - r.gain)) ∧
          (r.settling = 0 → ∀ p, s.check.internalOn c = some p →
            a = (if s.port.frameCounter < 24 then (p.amplitude : Int) else -p.amplitude) * 4 ^ (4 - p.gain)) ∧
          t.unit.get c =
            { u with
              lastValid := a
              main := pathNext wm u.main a
              peak := pathNext wp u.peak a
              energy := u.energy + (pathOut wm u.main a).natAbs ^ 2 / 2 ^ 16
              blockPeak := max u.blockPeak (pathOut wp u.peak a).natAbs
              saturations := u.saturations + pathSaturations wm u.main a + pathSaturations wp u.peak a
              checkEnergy :=
                if s.check.internalOn c = none then u.checkEnergy else u.checkEnergy + a.natAbs ^ 2 / 2 ^ 16
              raw := u.raw ++ [x] }

/-- R6: a frame arriving in STALLED returns the port to RUNNING and offers INPUT_RESUMED with the whole milliseconds of
the gap, at least 4 and saturating; the frame takes the frame in block at which the counter stood, and but for the offer
all that it leaves is what the same frame leaves in RUNNING, as SampleFrameIsHandled states it: the ACT sample, the range
controllers, the units and the block end due. SampleFrameIsHandled says how a block end still due goes first.
The gap is the row's operand, in microseconds (log entry 12). -/
def Obligations.FrameResumesStalledInput : Prop :=
  ∀ (x1 x2 x3 x4 : Sample) (act : Bool) (gap : Nat) (s : State), s.blockWork = none → s.port.stalled = true →
    let resumed : EventBody := .inputResumed (min 4294967295 (max 4 (gap / 1000)))
    ∃ t, exec (.sampleFrame x1 x2 x3 x4 act gap) s = .next t ∧
      (∃ u, exec (.sampleFrame x1 x2 x3 x4 act gap) { s with port := { s.port with stalled := false } } = .next u ∧
        t = { u with report := t.report, fifo := t.fifo }) ∧
      t.port.stalled = false ∧
      t.port.frameCounter = (if s.port.frameCounter < 47 then s.port.frameCounter + 1 else 0) ∧
      t.port.actSample = (if s.port.frameCounter = 0 then act else s.port.actSample) ∧
      t.blockWork = (if s.port.frameCounter < 47 then none else some allTasks) ∧
      (∀ c, t.range.get c = (s.range.get c).sample (s.store.active.range.get c) (s.store.active.codes.get c)
        (frameSample x1 x2 x3 x4 c).toInt) ∧
      t.clock = s.clock ∧ t.interval = s.interval ∧ t.monitor = s.monitor ∧ t.capture = s.capture ∧
      t.report = (s.offer none s.clock.now resumed).report ∧ t.fifo = (s.offer none s.clock.now resumed).fifo ∧
      (TakesEvents s.report 1 → t.report.events = s.report.events ++ [⟨none, s.clock.now, resumed⟩])

/-- R4, R5, R15, R35, R110, R114, R134, R135, R154, R155: STALL_TIMEOUT in RUNNING makes the port STALLED, offers
INPUT_STALLED with the frame counter, marks the open interval with GAP, closes every open episode with STALLED, whose
recording begins its tail or with a tail length of 0 becomes STORED, and ends a running check with STALLED, its channel's
freeze lifted and unit cleared. The port's counter, the clock, the store, the budgets, every threshold, the hold-offs and
the other recordings stay.
A block end still due is completed first (log entry 2), and in STALLED it changes nothing (log entry 3); the closes and
the check's end come in an order the manual leaves open (log entry 5). -/
def Obligations.StallClosesAndMarks : Prop :=
  (∀ s t : State, exec .blockEnd s = .next t → exec .stallTimeout s = exec .stallTimeout t) ∧
  ∀ s : State, s.blockWork = none →
    let now := s.clock.now
    let ended (p : CheckParams) : CheckRecord := cutRecord s p .stalled (s.store.staged.chan.get p.chan).k
    let closes (c : Chan) : List Notice := closingNotices s c (s.k c) now .stalled (storedAtOnce s.capture.tailLength)
    (s.port.stalled = true → exec .stallTimeout s = .next s) ∧
    (s.port.stalled = false →
      ∃ t, exec .stallTimeout s = .next t ∧
        t = { s with
          port := { s.port with stalled := true }
          interval := s.interval.map (fun iv => { iv with gap := true })
          monitor := t.monitor, capture := { s.capture with regions := t.capture.regions }, check := t.check
          range := t.range, unit := t.unit, report := t.report, fifo := t.fifo, choice := t.choice } ∧
        (∀ c, t.monitor.get c = (s.monitor.get c).closed) ∧
        TailsBegun s (fun _ => True) t.capture.regions ∧
        ((∀ p, ¬Running s p) → t.check = s.check ∧ t.range = s.range ∧ t.unit = s.unit) ∧
        (∀ p, Running s p →
          t.check = ⟨.idle, none, 0, 0, some (ended p)⟩ ∧
          t.range = s.range.set p.chan { s.range.get p.chan with frozen := false } ∧
          t.unit = s.unit.set p.chan
            { s.unit.get p.chan with main := .rest, peak := .rest, yF := 0, yS := 0, fCount := 0, sCount := 0 }) ∧
        (TakesEvents s.report 10 → t.fifo = s.fifo ∧
          ∃ order : List (Option Chan), order.Perm (none :: Chan.all.map some) ∧ ∃ done : List Notice,
            ((∀ p, ¬Running s p) → done = []) ∧
            (∀ p, Running s p → done = [⟨some p.chan, now, .checkDone (ended p)⟩]) ∧
            t.report.events = s.report.events ++ ⟨none, now, .inputStalled s.port.frameCounter⟩ ::
              order.flatMap fun x => match x with
                | some c => closes c
                | none => done))

/-- R2, R10, R11, R14: what a sample does to its range controller. A settling sample only counts; a frozen controller
leaves window peak and step; else the window peak rises, and above T_imm with the hold-off expired and the step above
g_min the step goes down by one with every effect of a gain change. -/
def Obligations.SampleMovesRangeController : Prop :=
  ∀ (set : RangeSettings) (codes : GainCodes) (x : Int) (r : RangeCtl),
    let mark := r.overload || decide (8380000 ≤ x.natAbs)
    (0 < r.settling → r.sample set codes x =
      { r with overload := mark, settling := r.settling - 1, settlingSamples := r.settlingSamples + 1 }) ∧
    (r.settling = 0 → r.frozen = true → r.sample set codes x = { r with overload := mark }) ∧
    (r.settling = 0 → r.frozen = false → set.tImm < x.natAbs → r.holdOff = 0 → set.gMin < r.gain →
      r.sample set codes x =
        { r with
          overload := mark, gain := r.gain - 1, lines := codes.code (r.gain - 1), settling := set.settle
          holdOff := set.holdOff, windowCounter := 0, windowPeak := 0, gainChanges := r.gainChanges + 1 }) ∧
    (r.settling = 0 → r.frozen = false → (x.natAbs ≤ set.tImm ∨ 0 < r.holdOff ∨ r.gain ≤ set.gMin) →
      r.sample set codes x = { r with overload := mark, windowPeak := max r.windowPeak x.natAbs })

/-- R3, R12, R13, R14: the block-end step of a range controller. The hold-off decreases; a frozen controller does no more;
short of the window's end the window counter rises; at the window's last block end, with the hold-off at 0, a peak above
T_hi steps down and one below T_lo steps up, within the range, and the window restarts. WINDOW_END takes this step at a
window's end, and nothing else changes; BLOCK_END takes it in every due list, and hands the summary on and clears it.
That the row takes a block end's steps up to its own, and changes nothing where its event does not fall, is the model's
choice, log entry 3. -/
def Obligations.WindowEndDecides : Prop :=
  ∀ (c : Chan) (s : State) (l : List Task), s.blockWork = some l → .range c ∈ l →
    let r := s.range.get c
    let set := s.store.active.range.get c
    let codes := s.store.active.codes.get c
    ∃ r' : RangeCtl,
      (r.frozen = true → r' = { r with holdOff := r.holdOff - 1 } ∧ exec (.windowEnd c) s = .next s) ∧
      (r.frozen = false → r.windowCounter + 1 < set.window →
        r' = { r with holdOff := r.holdOff - 1, windowCounter := r.windowCounter + 1 } ∧
          exec (.windowEnd c) s = .next s) ∧
      (r.frozen = false → set.window ≤ r.windowCounter + 1 →
        exec (.windowEnd c) s =
          .next { s with range := s.range.set c r', blockWork := some (l.erase (.range c)) } ∧
        r'.windowCounter = 0 ∧ r'.windowPeak = 0 ∧ r'.frozen = false ∧ r'.overload = r.overload ∧
        r'.settlingSamples = r.settlingSamples ∧
        (1 < r.holdOff → r' = { r with holdOff := r.holdOff - 1, windowCounter := 0, windowPeak := 0 }) ∧
        (r.holdOff ≤ 1 → set.tHi < r.windowPeak → set.gMin < r.gain →
          r'.gain = r.gain - 1 ∧ r'.lines = codes.code (r.gain - 1) ∧ r'.settling = set.settle ∧
            r'.holdOff = set.holdOff ∧ r'.gainChanges = r.gainChanges + 1) ∧
        (r.holdOff ≤ 1 → ¬(set.tHi < r.windowPeak ∧ set.gMin < r.gain) → r.windowPeak < set.tLo → r.gain < set.gMax →
          r'.gain = r.gain + 1 ∧ r'.lines = codes.code (r.gain + 1) ∧ r'.settling = set.settle ∧
            r'.holdOff = set.holdOff ∧ r'.gainChanges = r.gainChanges + 1) ∧
        (r.holdOff ≤ 1 → ¬(set.tHi < r.windowPeak ∧ set.gMin < r.gain) →
          ¬(r.windowPeak < set.tLo ∧ r.gain < set.gMax) →
          r' = { r with holdOff := 0, windowCounter := 0, windowPeak := 0 })) ∧
      (l.Nodup → (.boundary ∈ l → s.store.commitPending = false) →
        ∃ t, exec .blockEnd s = .next t ∧
          let x := t.range.get c
          let h := t.handed.results.get c
          (.weigh c ∉ l → x = { r' with frozen := x.frozen }) ∧
          (.weigh c ∈ l →
            x = { r' with overload := false, settlingSamples := 0, gainChanges := 0, frozen := x.frozen } ∧
            h.overload = r'.overload ∧ h.settlingSamples = r'.settlingSamples ∧ h.gainChanges = r'.gainChanges ∧
            h.gain = r'.gain) ∧
          (s.check.phase = .idle → x.frozen = r.frozen))

/-- R26: a section's output is the exact sum over 2^28 rounded half up and saturated, which counts one saturation, its
state moves on with the saturated output, and a path on W0 passes every signed 32-bit sample through unchanged and never
saturates. -/
def Obligations.SectionArithmeticIsExact : Prop :=
  (∀ (c : Coeffs) (st : SectionState) (x0 : Int),
    let y : Int := ⌊((c.b0 * x0 + c.b1 * st.x1 + c.b2 * st.x2 - c.a1 * st.y1 - c.a2 * st.y2 : Int) : ℚ) / 2 ^ 28
      + 1 / 2⌋
    (y > 2 ^ 31 - 1 → sectionOut c st x0 = 2 ^ 31 - 1 ∧ sectionSaturates c st x0 = 1) ∧
    (y < -2 ^ 31 → sectionOut c st x0 = -2 ^ 31 ∧ sectionSaturates c st x0 = 1) ∧
    (-2 ^ 31 ≤ y → y ≤ 2 ^ 31 - 1 → sectionOut c st x0 = y ∧ sectionSaturates c st x0 = 0) ∧
    sectionNext c st x0 = ⟨x0, st.x1, sectionOut c st x0, st.y1⟩) ∧
  ∀ (p : FilterPath) (a : Int), -2 ^ 31 ≤ a → a ≤ 2 ^ 31 - 1 →
    pathOut .flat p a = a ∧ pathSaturations .flat p a = 0

/-- R33: each update of a block end moves a detector by the floor of the divided difference, to a value between the old
one and E, so that a range bounding both bounds the new value; a clear sets it to 0. Under a constant E a detector from
above reaches E exactly, and one from below stops once it is less than the divisor below E. In silence every update lowers
it by at least 1, to exactly 0, whose level is NOSIG. -/
def Obligations.DetectorsFollowEnergy : Prop :=
  ∀ d : Nat, d = 128 ∨ d = 1024 → ∀ e y : Nat,
    ((detectorStep d e y : Int) = y + ⌊((e : ℚ) - y) / d⌋) ∧
    min y e ≤ detectorStep d e y ∧ detectorStep d e y ≤ max y e ∧
    (y ≤ 48 * 2 ^ 46 → e ≤ 48 * 2 ^ 46 → detectorStep d e y ≤ 48 * 2 ^ 46) ∧
    (e ≤ y → ∃ n, (detectorStep d e)^[n] y = e) ∧
    (y ≤ e → ∃ n, let z := (detectorStep d e)^[n] y; z ≤ e ∧ e < z + d ∧ detectorStep d e z = z) ∧
    (0 < y → detectorStep d 0 y + 1 ≤ y) ∧ (∀ k, level k 0 48 = -32768) ∧
    ∀ u : WeightUnit, u.update.yF = detectorStep 128 u.energy u.yF ∧ u.update.yS = detectorStep 1024 u.energy u.yS ∧
      u.clearDetectors.yF = 0 ∧ u.clearDetectors.yS = 0

/-- R16, R14: a commit clamps the gain step into the new range, a clamp being a gain change with all its effects; the
lines show the new table's code; without a clamp a new code starts a settling window and leaves hold-off and window as
they stand; and changed range settings restart the window and lower hold-off and settling to the new lengths where they
exceed them. A commit that changes neither leaves a controller that keeps within its settings untouched. -/
def Obligations.CommitClampsRangeController : Prop :=
  ∀ (old new : RangeSettings) (oldCodes newCodes : GainCodes) (r : RangeCtl), new.valid = true →
    r.Held old oldCodes →
    let r' := r.commit old new newCodes
    let clamped (g : Nat) : RangeCtl :=
      { r with
        gain := g, lines := newCodes.code g, settling := new.settle, holdOff := new.holdOff, windowCounter := 0
        windowPeak := 0 }
    r'.Held new newCodes ∧
    (new.gMin ≤ r.gain → r.gain ≤ new.gMax →
      r.clampCount new = 0 ∧
      r' = { r with
        lines := newCodes.code r.gain
        settling :=
          if newCodes.code r.gain ≠ r.lines then new.settle
          else if old = new then r.settling else min r.settling new.settle
        holdOff := if old = new then r.holdOff else min r.holdOff new.holdOff
        windowCounter := if old = new then r.windowCounter else 0
        windowPeak := if old = new then r.windowPeak else 0 }) ∧
    (r.gain < new.gMin → r' = clamped new.gMin ∧ r.clampCount new = new.gMin - r.gain) ∧
    (new.gMax < r.gain → r' = clamped new.gMax ∧ r.clampCount new = r.gain - new.gMax) ∧
    (old = new → oldCodes = newCodes → r' = r)

/-! ### Level arithmetic -/

/-- R40 (and R45): the level of v > 0 over n samples is round(1000 · log10(v / n)) + K, the one integer of R40's double
inequality, a half-way point never arises, an exact power of ten reads 1000 times its exponent plus K; the level of 0 is
NOSIG. The peak level of P > 0 is round(2000 · log10(P / 256)) + K. -/
def Obligations.LevelIsRoundedLogarithm : Prop :=
  (∀ (k : Int) (n : Nat), level k 0 n = -32768) ∧
  (∀ (k : Int) (v n : Nat), 0 < v → 0 < n →
    level k v n = round (1000 * Real.logb 10 ((v : ℝ) / n)) + k ∧
    (∀ m : Int, level k v n = m + k ↔
      (10 : ℝ) ^ (((m : ℝ) - 1 / 2) / 1000) ≤ (v : ℝ) / n ∧ (v : ℝ) / n < (10 : ℝ) ^ (((m : ℝ) + 1 / 2) / 1000)) ∧
    ∀ m : Int, (v : ℝ) / n ≠ (10 : ℝ) ^ (((m : ℝ) + 1 / 2) / 1000)) ∧
  (∀ (k : Int) (n e : Nat), 0 < n → level k (n * 10 ^ e) n = 1000 * e + k) ∧
  (∀ k : Int, peakLevel k 0 = -32768) ∧
  ∀ (k : Int) (p : Nat), 0 < p → peakLevel k p = round (2000 * Real.logb 10 ((p : ℝ) / 256)) + k

/-- R41, R48: the level depends on v and n through v / n alone, K shifts it, it never falls as v grows, never rises as n
grows, and over what an interval, a detector or an episode can gather it lies in −18,600 to +28,847. -/
def Obligations.LevelFollowsMeanSquare : Prop :=
  ∀ (k : Int) (v v' n n' : Nat), 0 < v → 0 < v' → 0 < n → 0 < n' →
    (v * n' = v' * n → level k v n = level k v' n') ∧
    level k v n = level 0 v n + k ∧
    (v ≤ v' → level k v n ≤ level k v' n) ∧
    (n ≤ n' → level k v n' ≤ level k v n) ∧
    (-10000 ≤ k → k ≤ 15000 → n ≤ 172800000 → v ≤ n * 2 ^ 46 → -18600 ≤ level k v n ∧ level k v n ≤ 28847) ∧
    (-10000 ≤ k → k ≤ 15000 → v ≤ 2 ^ 31 → -18600 ≤ peakLevel k v ∧ peakLevel k v ≤ 28847)

/-- R49, R50: each threshold is the ceiling formula less 1, capped; and, within the cap, a quantity is above its threshold
exactly when its level is above the limit. -/
def Obligations.ThresholdsInvertLevels : Prop :=
  ∀ k limit : Int, -32768 ≤ limit →
    (∀ n : Nat, 0 < n →
      (budgetOf k limit n : Int) =
        min ((n : Int) * 2 ^ 46) (⌈(n : ℝ) * (10 : ℝ) ^ (((limit : ℝ) - k + 1 / 2) / 1000)⌉ - 1) ∧
      ∀ sum : Nat, sum ≤ n * 2 ^ 46 → (budgetOf k limit n < sum ↔ limit < level k sum n)) ∧
    (episodeThreshold k limit : Int) =
      min (48 * 2 ^ 46) (⌈(48 : ℝ) * (10 : ℝ) ^ (((limit : ℝ) - k + 1 / 2) / 1000)⌉ - 1) ∧
    (∀ y : Nat, y ≤ 48 * 2 ^ 46 → (episodeThreshold k limit < y ↔ limit < level k y 48)) ∧
    (peakThreshold k limit : Int) =
      min (2 ^ 31) (⌈(256 : ℝ) * (10 : ℝ) ^ (((limit : ℝ) - k + 1 / 2) / 2000)⌉ - 1) ∧
    ∀ p : Nat, p ≤ 2 ^ 31 → (peakThreshold k limit < p ↔ limit < peakLevel k p)

/-- R52: the site contribution is INDET in OFF and STRIKE, with no active or no quiet samples, with Leq_act NOSIG, and with
a reported difference below 300; otherwise the active mean square less the quiet one is positive, and its level, at most
Leq_act, is the site contribution. -/
def Obligations.SiteContributionIsDifference : Prop :=
  ∀ (mode : ActivityMode) (k : Int) (sa na sq nq : Nat), -10000 ≤ k → k ≤ 15000 → na ≤ 172800000 → nq ≤ 172800000 →
    sa ≤ na * 2 ^ 46 → sq ≤ nq * 2 ^ 46 →
    (mode ≠ .gate ∨ na = 0 ∨ nq = 0 ∨ sa = 0 ∨ (0 < sq ∧ level k sa na - level k sq nq < 300) →
      siteContribution mode k sa na sq nq = -32767) ∧
    (mode = .gate → 0 < na → 0 < nq → 0 < sa → (sq = 0 ∨ 300 ≤ level k sa na - level k sq nq) →
      sq * na < sa * nq ∧
      siteContribution mode k sa na sq nq =
        round (1000 * Real.logb 10 (((sa : ℝ) * nq - sq * na) / (na * nq))) + k ∧
      siteContribution mode k sa na sq nq ≤ level k sa na)

/-- R54: with no histogram samples a percentile is NOSIG; otherwise it is ABOVE, the lower edge of a regular bin, or BELOW,
by where the running total from the overflow bin downward first reaches the rank; a larger point never reads higher. -/
def Obligations.PercentileReadsRank : Prop :=
  ∀ (h0 : Nat) (bins : List Nat) (top under n : Nat), h0 ≤ 12000 → bins.length = 240 → 1 ≤ n → n ≤ 99 →
    let total := top + bins.sum + under
    let rank := ⌈((n * total : Nat) : ℚ) / 100⌉
    (total = 0 → percentile h0 bins top total n = -32768) ∧
    (0 < total →
      (percentile h0 bins top total n = 32767 ↔ rank ≤ top) ∧
      (∀ i : Nat, i < 240 → (percentile h0 bins top total n = (h0 : Int) + 50 * (i : Int) ↔
        ((top + (bins.drop (i + 1)).sum : Nat) : Int) < rank ∧ rank ≤ (top + (bins.drop i).sum : Nat))) ∧
      (percentile h0 bins top total n = -32766 ↔ ((top + bins.sum : Nat) : Int) < rank) ∧
      ∀ n' : Nat, n ≤ n' → n' ≤ 99 → percentile h0 bins top total n' ≤ percentile h0 bins top total n)

/-! ### Site clock and schedule -/

/-- R57, R58: the next day is a valid date one day on, so the days from 2000-01-01 (0, a Saturday) and the days of the week
follow in order; the months have their days, February 29 in a year divisible by 4; and 2099-12-31 holds. -/
def Obligations.NextDayCountsOn : Prop :=
  dayNumber ⟨2000, 1, 1, 0, 0⟩ = 0 ∧ dayOfWeek ⟨2000, 1, 1, 0, 0⟩ = 5 ∧
  ∀ t : Stamp, t.valid = true →
    (nextDay t).valid = true ∧ (nextDay t).second = t.second ∧ (nextDay t).block = t.block ∧
    ((t.year, t.month, t.day) ≠ (2099, 12, 31) →
      dayNumber (nextDay t) = dayNumber t + 1 ∧ dayOfWeek (nextDay t) = (dayOfWeek t + 1) % 7) ∧
    ((t.year, t.month, t.day) = (2099, 12, 31) → nextDay t = t) ∧
    (t.day < daysInMonth t.year t.month → nextDay t = { t with day := t.day + 1 }) ∧
    (t.day = daysInMonth t.year t.month → t.month < 12 → nextDay t = { t with month := t.month + 1, day := 1 }) ∧
    (t.day = 31 → t.month = 12 → t.year < 2099 → nextDay t = { t with year := t.year + 1, month := 1, day := 1 }) ∧
    daysInMonth t.year t.month =
      [31, if t.year % 4 = 0 then 29 else 28, 31, 30, 31, 30, 31, 31, 30, 31, 30, 31].getD (t.month - 1) 0

/-- R66: the lookup's result is the lowest index of a valid entry whose days hold the day of the week and whose span holds
the minute of the day, NO_ENTRY exactly when none matches, and depends on the date and the minute alone. -/
def Obligations.LookupFindsLowestMatch : Prop :=
  ∀ (schedule : Vector ScheduleEntry 16) (t : Stamp),
    let hit (i : Fin 16) : Prop :=
      schedule[i].valid = true ∧ schedule[i].days.getLsbD ((dayNumber t + 5) % 7) = true ∧
        schedule[i].startMinute ≤ t.second / 60 ∧ t.second / 60 < schedule[i].endMinute
    (∀ i : Nat, lookup schedule t = .entry i ↔ ∃ h : i < 16, hit ⟨i, h⟩ ∧ ∀ j : Fin 16, j.val < i → ¬hit j) ∧
    (lookup schedule t = .noEntry ↔ ∀ i, ¬hit i) ∧
    ∀ u : Stamp, (u.year, u.month, u.day) = (t.year, t.month, t.day) → u.second / 60 = t.second / 60 →
      lookup schedule u = lookup schedule t

/-- R85: N_nom is 48 for each block from the opening to the next block end at an aligned second or midnight, and no block
end before it is one. -/
def Obligations.NominalSamplesReachBoundary : Prop :=
  ∀ (len : Nat) (t : Stamp), 1 ≤ len → len ≤ 3600 → t.valid = true →
    let aligned (u : Stamp) : Prop := u.block = 0 ∧ u.second % len = 0
    ∃ b, 0 < b ∧ nominalSamples len t = 48 * b ∧ aligned (advance^[b] t) ∧
      ∀ j, 0 < j → j < b → ¬aligned (advance^[j] t)


/-! ### The block end -/

/-- R1, R12, R37, R55, R56, R60, R63, R73, R90, R91, R92, R103, R121, R128, R151, R166: BLOCK_END completes the steps
still to be taken, each once and none before a step that it must wait for; what a step does depends on those still left in
one way alone, by which an episode's close finds its channel's capture step still due. The clock's step advances the reading by one block or puts the
pending load in its place, and hands the instant at which the block ended, the new reading, what changed, and at a minute
change with an interval open the lookup that differs from the entry in force. A unit's step hands its block's sums and its
updated detectors, and the sums return to 0. The classification starts the guard at a change of ACT, gives each channel
its class, EXCLUDED where a check ran in the block, and marks a strike. The port, the link and the memory stay.
With no block end due nothing happens (log entry 2); the order among steps that wait for none is open (log entry 5); that
the check energy of a block in which an INTERNAL check ended is its sum so far is the model's choice, log entry 24. -/
def Obligations.BlockEndAdvancesClock : Prop :=
  (∀ s : State, s.blockWork = none → exec .blockEnd s = .next s) ∧
  (∀ (s : State) (l : List Task), s.blockWork = some l →
    ∃ order : List Task, order.Perm l ∧ order.Pairwise (fun u t => t.before u = false) ∧
      exec .blockEnd s =
        .next (runTasks Config.pick order { s with choice := s.choice + l.length }).endOfBlock) ∧
  (∀ (t : Task) (s : State) (w : Option (List Task)),
    (∀ c, (t = .episode c ∧ (s.monitor.get c).episode.isSome = true) ∨ t = .boundary →
      (.capture c ∈ w.getD [] ↔ .capture c ∈ s.dueSteps)) →
    runTask Config.pick t { s with blockWork := w } = { runTask Config.pick t s with blockWork := w }) ∧
  ∀ (s : State) (l : List Task), s.blockWork = some l → l.Nodup →
    ∃ t, exec .blockEnd s = .next t ∧ t.blockWork = none ∧ t.port = s.port ∧ t.link = s.link ∧ t.memory = s.memory ∧
      t.pending = s.pending ∧
      (∀ c, t.acc.checkInBlock.get c = true ↔ ∃ p, Running t p ∧ p.chan = c) ∧
      (.clock ∈ l →
        let r := t.handed.report
        let now := s.clock.now
        r.ended = advance now ∧ r.named = now.block ∧ r.reading = t.clock.now ∧ r.load = s.clock.pendingLoad.isSome ∧
        t.clock.pendingLoad = none ∧
        (∀ u, s.clock.pendingLoad = some u →
          t.clock.now = u ∧ t.clock.isSet = true ∧ r.secondChanged = false ∧ r.minuteChanged = false ∧
            r.dayChanged = false ∧ r.scheduleChange = none) ∧
        (s.clock.pendingLoad = none →
          t.clock.now = advance now ∧ t.clock.isSet = s.clock.isSet ∧
          r.secondChanged = decide (999 ≤ now.block) ∧
          r.minuteChanged = decide (999 ≤ now.block ∧ (advance now).second % 60 = 0) ∧
          r.dayChanged = decide (999 ≤ now.block ∧ 86399 ≤ now.second) ∧
          (let found := lookup s.store.active.schedule (advance now)
          r.scheduleChange =
            if r.minuteChanged = true ∧ s.interval.isSome = true ∧ s.clock.entryInForce ≠ some found then some found
            else none))) ∧
      (.classify ∈ l →
        let a := s.store.active
        let sample := s.port.actSample
        let changed := s.acc.prevAct = some (!sample)
        let g := if changed then a.guardLength else s.acc.guardRemaining
        t.acc.prevAct = some sample ∧
        ((.boundary ∈ l → s.store.commitPending = false) → t.acc.guardRemaining = g - 1) ∧
        t.handed.strike = decide (a.mode = .strike ∧ sample = a.polarityHigh ∧ changed) ∧
        ∀ c, t.handed.classes.get c =
          if s.acc.checkInBlock.get c = true then .excluded
          else if a.mode ≠ .gate then .active
          else if 0 < g then .transition
          else if sample = a.polarityHigh then .active
          else .quiet) ∧
      ∀ c, .weigh c ∈ l →
        let u := s.unit.get c
        let x := t.handed.results.get c
        x.energy = u.energy ∧ x.peak = u.blockPeak ∧ x.saturations = u.saturations ∧ x.checkEnergy = u.checkEnergy ∧
          x.raw = u.raw ∧ x.yF = detectorStep 128 u.energy u.yF ∧ x.yS = detectorStep 1024 u.energy u.yS ∧
          x.fSettled = decide (999 ≤ u.fCount) ∧ x.sSettled = decide (4999 ≤ u.sCount) ∧
          (t.unit.get c).energy = 0 ∧ (t.unit.get c).blockPeak = 0 ∧ (t.unit.get c).saturations = 0 ∧
          (t.unit.get c).checkEnergy = 0 ∧ (t.unit.get c).raw = []

/-- R73, R81, R83, R84, R85, R89, R98, R102, R110, R112, R134, R135, R157: the boundary operation of a block end. With an
interval open its close cause is the first that holds of load, midnight, aligned second, schedule change and pending
restart; with none open an opening is due if one is pending, or at the first load in UNTIMED. The closing interval's
records, one of each of its channels in channel order, enter the record FIFO, which discards and reports its oldest above
128. Then with hold pending HELD is entered and offered, the open episodes close with LIMIT_REMOVED, and a pending commit
is applied at once. Otherwise a pending commit is applied, and the next interval opens at the reading, with empty
accumulators and the entry, N_nom and thresholds of the active configuration; the episodes left with no Lmax limit close
with LIMIT_REMOVED, and the others go on. Where nothing closes or opens nothing changes. With a channel's capture step
still due, the block is the close block of an episode that closes with LIMIT_REMOVED, in either order of the two steps: its
recording has the block and its whole tail before it, or with a tail length of 0 is STORED with the block.
A commit on entering HELD is reported as applied at once (log entry 14); a load at which no interval is open and none
opens leaves the carried mark (log entry 16); the order of the closes is open (log entry 5). -/
def Obligations.BoundaryClosesAndOpens : Prop :=
  (∀ s : State, s.blockWork = some [.boundary, .alert, .live] → s.report.sending.isSome = true →
    let r := s.handed.report
    let a := s.store.active
    let commit := s.store.commitPending
    let a' := if commit then s.store.staged else a
    let cause : Option CloseCause :=
      if r.load = true then some .clockSet
      else if r.dayChanged = true then some .midnight
      else if r.secondChanged = true ∧ r.reading.second % (a.base * a.factor) = 0 then some .aligned
      else if r.scheduleChange.isSome = true then some .schedule
      else if s.acc.restartPending = true then some .resumeStart
      else none
    let closing : Option (Interval × CloseCause) := match s.interval, cause with
      | some iv, some x => some (iv, x)
      | _, _ => none
    let opening : Prop :=
      s.interval = none ∧ (s.acc.openingPending = true ∨ (r.load = true ∧ s.acc.phase = .untimed))
    let records : List IntervalRecord := match closing with
      | none => []
      | some (iv, x) => Chan.all.filterMap fun c =>
        match iv.accs.get c with
        | none => none
        | some ac =>
          if ac.active + ac.quiet + ac.transition + ac.excluded = 0 then none
          else some (intervalRecord iv c ac (a.chan.get c) a.mode (s.monitor.get c) r.ended x s.acc.holdPending)
    let total := s.fifo ++ records
    let excess := total.length - 128
    let lost : List Notice := (total.take excess).zipIdx.map fun (q, i) =>
      ⟨none, r.ended, .recordsLost q.number q.chan (min 65535 (s.recordsLost + i + 1))⟩
    let clamps (c : Chan) : Nat := if commit then (s.range.get c).clampCount (a'.range.get c) else 0
    let removed (k : Chan → Int) (c : Chan) : List Notice :=
      closingNotices s c (k c) r.ended .limitRemoved (storedAtOnce s.capture.tailLength)
    ∃ t, exec .blockEnd s = .next t ∧
      t.port = s.port ∧ t.link = s.link ∧ t.memory = s.memory ∧ t.nextEpisode = s.nextEpisode ∧
      t.capture = { s.capture with regions := t.capture.regions, closeBlock := .same false } ∧
      (closing = none → ¬opening →
        t.interval = s.interval ∧ t.fifo = s.fifo ∧ t.recordsLost = s.recordsLost ∧ t.store = s.store ∧
          t.monitor = s.monitor ∧ t.capture.regions = s.capture.regions ∧ t.clock = s.clock ∧ t.range = s.range ∧
          t.unit = s.unit ∧ t.check = s.check ∧ t.report.events = s.report.events ∧
          t.acc = { s.acc with
            checkInBlock := t.acc.checkInBlock
            carriedClock := s.acc.carriedClock || (s.interval.isNone && r.load) }) ∧
      (closing.isSome = true ∨ opening →
        (s.fifo.length ≤ 128 → t.fifo = total.drop excess ∧
          t.recordsLost = (if excess = 0 then s.recordsLost else min 65535 (s.recordsLost + excess))) ∧
        t.store = ⟨s.store.staged, a', false⟩ ∧
        (commit = false →
          t.check = s.check ∧ t.range = s.range ∧ t.unit = s.unit ∧
            t.acc.guardRemaining = s.acc.guardRemaining) ∧
        (s.acc.holdPending = true →
          ∃ ns : List Notice, (commit = false → ns = []) ∧ (commit = true → CommitTaken s t r.ended false ns) ∧
          t.interval = none ∧
          t.clock =
            { s.clock with entryInForce := if closing.isSome then none else s.clock.entryInForce } ∧
          t.acc = { s.acc with
            phase := .held, holdPending := false, openingPending := false, restartPending := false
            carriedConfig := s.acc.carriedConfig || commit
            carriedClock := s.acc.carriedClock || (s.interval.isNone && r.load)
            carriedGain := t.acc.carriedGain, guardRemaining := t.acc.guardRemaining
            checkInBlock := t.acc.checkInBlock } ∧
          (∀ c, t.acc.carriedGain.get c =
            if commit then min 4294967295 (s.acc.carriedGain.get c + clamps c) else s.acc.carriedGain.get c) ∧
          (∀ c, t.monitor.get c =
            let m := s.monitor.get c
            MonitorChan.closed (if closing.isSome then
              { m with budget := none, lmax := none, peak := none, warned := false, spent := false } else m)) ∧
          TailsBegun s (fun _ => True) t.capture.regions ∧
          (s.fifo.length ≤ 128 → TakesEvents s.report 15 →
            ∃ order : List Chan, order.Perm Chan.all ∧
              t.report.events = s.report.events ++ lost ++
                ⟨none, r.ended, .holdEntered (closing.map fun x => x.1.number)⟩ ::
                order.flatMap (removed fun c => (a.chan.get c).k) ++ ns)) ∧
        (s.acc.holdPending = false →
          ∃ ns : List Notice, (commit = false → ns = []) ∧ (commit = true → CommitTaken s t r.ended true ns) ∧
          t.acc = { s.acc with
            phase := .measuring, openingPending := false, restartPending := false
            nextNumber := (s.acc.nextNumber + 1) % 2 ^ 32, carriedConfig := false, carriedClock := false
            carriedGain := .same 0, guardRemaining := t.acc.guardRemaining, checkInBlock := t.acc.checkInBlock } ∧
          TailsBegun s (fun c => (t.monitor.get c).lmax = none) t.capture.regions ∧
          (s.fifo.length ≤ 128 → TakesEvents s.report 15 →
            ∃ order : List Chan, order.Perm Chan.all ∧
              t.report.events = s.report.events ++ lost ++ ns ++ order.flatMap fun c =>
                if (t.monitor.get c).lmax = none then removed (fun c => (a'.chan.get c).k) c else []) ∧
          ∃ iv', t.interval = some iv' ∧ iv'.number = s.acc.nextNumber ∧ iv'.openTime = r.reading ∧
            iv'.entry = lookup a'.schedule r.reading ∧ t.clock = { s.clock with entryInForce := some iv'.entry } ∧
            iv'.nNom = nominalSamples (a'.base * a'.factor) r.reading ∧ iv'.gap = false ∧ iv'.strikes = 0 ∧
            iv'.configApplied = (commit || s.acc.carriedConfig) ∧
            iv'.clockSet = (r.load || s.acc.carriedClock) ∧
            ∀ c, let set := a'.chan.get c
              let lim := effectiveLimits a'.schedule set.limitOffset iv'.entry
              let m := t.monitor.get c
              (set.enable = false →
                iv'.accs.get c = none ∧
                m = MonitorChan.closed
                  { s.monitor.get c with
                    budget := none, lmax := none, peak := none, warned := false, spent := false }) ∧
              (set.enable = true →
                (∃ g, iv'.accs.get c = some
                  { limits := lim, sum := 0, sumActive := 0, sumQuiet := 0, active := 0, quiet := 0, transition := 0
                    excluded := 0, maxF := none, minF := none, maxS := none, maxPeak := none, fSettling := false
                    bins := Vector.replicate 240 0, underflow := 0, overflow := 0, samplingCounter := 0
                    overloadBlocks := 0, settlingSamples := 0, saturations := 0
                    gainChanges := min 4294967295 (s.acc.carriedGain.get c + clamps c), histSamples := 0
                    finalGain := g }) ∧
                let opened : MonitorChan :=
                  { s.monitor.get c with
                    budget := lim.leq.map (fun l =>
                      ⟨l, budgetOf set.k l iv'.nNom, set.warnPercent * budgetOf set.k l iv'.nNom / 100⟩)
                    lmax := lim.lmax.map (fun l =>
                      ⟨l, episodeThreshold set.k l, episodeThreshold set.k (l - set.hysteresis)⟩)
                    peak := lim.peak.map (fun l => ⟨l, peakThreshold set.k l⟩), releaseTime := set.releaseTime
                    warned := false, spent := false, peaksOver := 0, episodesOpened := 0 }
                m = if lim.lmax = none then opened.closed else opened)))) ∧
  ∀ (s : State) (c : Chan) (e : Episode) (i : Fin 16) (d : Descriptor),
    s.blockWork = some [.capture c, .boundary, .alert, .live] → RecordedBy s c e i d →
    s.capture.closeBlock.get c = false →
    let k := s.capture
    let r := s.handed.report
    let a := s.store.active
    let a' := if s.store.commitPending then s.store.staged else a
    let set := a'.chan.get c
    let closes : Prop := s.interval.isSome = true ∧
      (r.load = true ∨ r.dayChanged = true ∨ (r.secondChanged = true ∧ r.reading.second % (a.base * a.factor) = 0) ∨
        r.scheduleChange.isSome = true ∨ s.acc.restartPending = true)
    let opens : Prop := s.interval = none ∧ (s.acc.openingPending = true ∨ (r.load = true ∧ s.acc.phase = .untimed))
    closes ∨ opens →
    s.acc.holdPending = true ∨ set.enable = false ∨
      (effectiveLimits a'.schedule set.limitOffset (lookup a'.schedule r.reading)).lmax = none →
    ∃ t, exec .blockEnd s = .next t ∧ (t.monitor.get c).episode = none ∧ (t.monitor.get c).phase = .idle ∧
      (¬Accepts k ∨ d.length + 1 < 10000 →
        t.capture.regions[i] =
          if k.tailLength = 0 then .stored (blockRecorded k d) else .recording (blockRecorded k d) (some k.tailLength)) ∧
      (Accepts k → 10000 ≤ d.length + 1 →
        ∃ cut, t.capture.regions[i] = .stored { d with length := d.length + 1, truncated := cut } ∧
          (0 < k.tailLength ∨ d.truncated = true → cut = true))

/-- R43, R44, R45, R92, R93, R94, R95, R96, R97, R105, R186: BLOCK_END adds the block to the accumulators of each channel of the
open interval: the sums and counts by its class, the extremes and the histogram, the saturating counts, and of an excluded
block the count, the gain changes and the gain step alone; a strike is counted once. The record of a channel carries the
interval's number, times, cause, entry and strikes, the limits, N as 48 samples a block of its classes and the block
counts, its levels over the sums and extremes, the site contribution, the percentiles at the channel's three points with
the points, the counts of the accumulators and of the monitor, the budget used, the last gain step, and a flags field of
which each bit 0 to 13 is its rule's condition and bits 14 and 15 are clear; on the link it is 116 bytes long, each field
at its offset.
PARTIAL is formed from the block counts (log entry 15). -/
def Obligations.RecordCarriesFlags : Prop :=
  (∀ (s : State) (l : List Task) (iv : Interval), s.blockWork = some l → l.Nodup → .accumulate ∈ l →
    s.interval = some iv →
    ∃ t, exec .blockEnd s = .next t ∧
      ((.boundary ∈ l → NoBoundary { s with handed := t.handed }) →
        ∃ iv', t.interval = some iv' ∧
          iv' = { iv with strikes := iv.strikes + (if t.handed.strike = true then 1 else 0), accs := iv'.accs } ∧
          ∀ c, (iv.accs.get c = none → iv'.accs.get c = none) ∧
            ∀ ac, iv.accs.get c = some ac → ∃ ac', iv'.accs.get c = some ac' ∧
              BlockAdded (s.store.active.chan.get c).k (s.store.active.chan.get c).h0 (t.handed.results.get c)
                (t.handed.classes.get c) ac ac')) ∧
  ∀ (iv : Interval) (c : Chan) (ac : ChannelAcc) (set : ChannelSettings) (mode : ActivityMode) (m : MonitorChan)
    (close : Stamp) (cause : CloseCause) (hold : Bool),
    let r := intervalRecord iv c ac set mode m close cause hold
    let above' (l : Option Int) (x : Int) : Bool := l.any (fun y => decide (y < x))
    r.number = iv.number ∧ r.chan = c ∧ r.openTime = iv.openTime ∧ r.closeTime = close ∧ r.cause = cause ∧
    r.entry = iv.entry ∧ r.n = 48 * (ac.active + ac.quiet + ac.transition) ∧
    r.leq = level set.k ac.sum r.n ∧ r.leqActive = level set.k ac.sumActive (48 * ac.active) ∧
    r.leqQuiet = level set.k ac.sumQuiet (48 * ac.quiet) ∧
    (∀ y, ac.maxF = some y → r.lfMax = level set.k y 48) ∧ (ac.maxF = none → r.lfMax = -32768) ∧
    (∀ p, ac.maxPeak = some p → r.lpk = peakLevel set.k p) ∧ (ac.maxPeak = none → r.lpk = -32768) ∧
    (r.flags.getLsbD 0 = decide (48 * (ac.active + ac.quiet + ac.transition + ac.excluded) < iv.nNom)) ∧
    r.flags.getLsbD 1 = iv.gap ∧ (r.flags.getLsbD 2 = decide (0 < ac.overloadBlocks)) ∧
    (r.flags.getLsbD 3 = decide (0 < ac.saturations)) ∧ r.flags.getLsbD 4 = ac.fSettling ∧
    (r.flags.getLsbD 5 = decide (0 < ac.excluded)) ∧ r.flags.getLsbD 6 = above' ac.limits.leq r.leq ∧
    r.flags.getLsbD 7 = above' ac.limits.lmax r.lfMax ∧ r.flags.getLsbD 8 = above' ac.limits.peak r.lpk ∧
    r.flags.getLsbD 9 = m.warned ∧ (r.flags.getLsbD 10 = decide (iv.entry = .noEntry)) ∧
    r.flags.getLsbD 11 = iv.configApplied ∧ r.flags.getLsbD 12 = iv.clockSet ∧ r.flags.getLsbD 13 = hold ∧
    r.flags.getLsbD 14 = false ∧ r.flags.getLsbD 15 = false ∧
    r.limits = ac.limits ∧ r.active = ac.active ∧ r.quiet = ac.quiet ∧ r.transition = ac.transition ∧
    r.excluded = ac.excluded ∧
    r.site = siteContribution mode set.k ac.sumActive (48 * ac.active) ac.sumQuiet (48 * ac.quiet) ∧
    (∀ y, ac.minF = some y → r.lfMin = level set.k y 48) ∧ (ac.minF = none → r.lfMin = -32768) ∧
    (∀ y, ac.maxS = some y → r.lsMax = level set.k y 48) ∧ (ac.maxS = none → r.lsMax = -32768) ∧
    (let read (n : Nat) : Int := percentile set.h0 ac.bins.toList ac.overflow ac.histSamples n
    r.p1 = read set.n1 ∧ r.p2 = read set.n2 ∧ r.p3 = read set.n3) ∧
    r.n1 = set.n1 ∧ r.n2 = set.n2 ∧ r.n3 = set.n3 ∧
    r.overloadBlocks = ac.overloadBlocks ∧ r.settlingSamples = ac.settlingSamples ∧ r.saturations = ac.saturations ∧
    r.gainChanges = ac.gainChanges ∧ r.peaksOver = m.peaksOver ∧ r.episodesOpened = m.episodesOpened ∧
    r.histSamples = ac.histSamples ∧ r.strikes = iv.strikes ∧ r.finalGain = ac.finalGain ∧
    (m.budget = none → r.budgetUsed = 0) ∧
    (∀ b, m.budget = some b →
      (b.b = 0 → r.budgetUsed = if ac.sum = 0 then 0 else 65535) ∧
      (0 < b.b → r.budgetUsed = min 65535 (1000 * ac.sum / b.b))) ∧
    let limit (l : Option Int) : List Byte := i16 (l.getD 0)
    let bit (l : Option Int) (n : Nat) : Nat := if l.isSome then n else 0
    let fields : List (Nat × List Byte) :=
      [(0, u32 r.number), (4, u8 r.chan.number), (5, stampBytes r.openTime), (15, stampBytes r.closeTime),
        (25, u8 r.cause.code), (26, u8 r.entry.code),
        (27, u8 (bit r.limits.leq 1 + bit r.limits.lmax 2 + bit r.limits.peak 4)), (28, limit r.limits.leq),
        (30, limit r.limits.lmax), (32, limit r.limits.peak), (34, u32 r.n), (38, u32 r.active), (42, u32 r.quiet),
        (46, u32 r.transition), (50, u32 r.excluded), (54, i16 r.leq), (56, i16 r.leqActive), (58, i16 r.leqQuiet),
        (60, i16 r.site), (62, i16 r.lfMax), (64, i16 r.lfMin), (66, i16 r.lsMax), (68, i16 r.lpk), (70, i16 r.p1),
        (72, i16 r.p2), (74, i16 r.p3), (76, u8 r.n1), (77, u8 r.n2), (78, u8 r.n3), (79, u32 r.overloadBlocks),
        (83, u32 r.settlingSamples), (87, u32 r.saturations), (91, u32 r.gainChanges), (95, u32 r.peaksOver),
        (99, u32 r.episodesOpened), (103, u32 r.histSamples), (107, u32 r.strikes), (111, u16 r.budgetUsed),
        (113, u8 r.finalGain), (114, u16 r.flags.toNat)]
    (recordBytes r).length = 116 ∧ ∀ f ∈ fields, ((recordBytes r).drop f.1).take f.2.length = f.2

/-- R104, R105, R117, R162: at a block end an included block past the warning threshold marks the channel and offers
BUDGET_WARN once, past the budget BUDGET_SPENT once; a block peak above the peak threshold counts, and with the hold-off
run out offers PEAK and starts the hold-off of 1000 block ends, else it is counted suppressed. The marks, the counts and
the hold-off do not depend on whether a notice passes the masks.
BlockEndAdvancesClock says how such steps make up the block end of any due list. -/
def Obligations.BudgetAndPeakSteps : Prop :=
  ∀ (s : State) (c : Chan),
    let m := s.monitor.get c
    let x := s.handed.results.get c
    let at' := s.handed.report.ended
    (∀ (b : BudgetThreshold) (iv : Interval) (ac : ChannelAcc), s.blockWork = some [.budget c] → m.budget = some b →
      s.interval = some iv → iv.accs.get c = some ac → s.handed.classes.get c ≠ .excluded →
      ∃ t, exec .blockEnd s = .next t ∧
        t.monitor = s.monitor.set c
          { m with warned := m.warned || decide (b.warn < ac.sum), spent := m.spent || decide (b.b < ac.sum) } ∧
        ∃ used : Nat, (b.b = 0 → used = if ac.sum = 0 then 0 else 65535) ∧
          (0 < b.b → used = min 65535 (1000 * ac.sum / b.b)) ∧
          (TakesEvents s.report 2 → t.report.events = s.report.events ++
            (if b.warn < ac.sum ∧ m.warned = false then [⟨some c, at', .budgetWarn used b.limit iv.number⟩] else []) ++
            (if b.b < ac.sum ∧ m.spent = false then [⟨some c, at', .budgetSpent used b.limit iv.number⟩] else []))) ∧
    (s.blockWork = some [.budget c] → m.budget = none ∨ s.handed.classes.get c = .excluded →
      ∃ t, exec .blockEnd s = .next t ∧ t.monitor = s.monitor ∧ t.report = s.report) ∧
    (s.blockWork = some [.peak c] → (∀ p, m.peak = some p → s.handed.classes.get c = .excluded ∨ x.peak ≤ p.a) →
      ∃ t, exec .blockEnd s = .next t ∧ t.monitor = s.monitor.set c { m with peakHoldOff := m.peakHoldOff - 1 } ∧
        t.report = s.report) ∧
    ∀ p : PeakThreshold, s.blockWork = some [.peak c] → m.peak = some p → s.handed.classes.get c ≠ .excluded →
      p.a < x.peak →
      ∃ t, exec .blockEnd s = .next t ∧
        (m.peakHoldOff ≤ 1 →
          t.monitor = s.monitor.set c
            { m with peakHoldOff := 1000, peaksSuppressed := 0, peaksOver := min 4294967295 (m.peaksOver + 1) } ∧
          (TakesEvents s.report 1 → t.report.events = s.report.events ++
            [⟨some c, at', .peak (peakLevel (s.store.active.chan.get c).k x.peak) p.limit m.peaksSuppressed⟩])) ∧
        (1 < m.peakHoldOff →
          t.monitor = s.monitor.set c
            { m with
              peakHoldOff := m.peakHoldOff - 1, peaksSuppressed := min 65535 (m.peaksSuppressed + 1)
              peaksOver := min 4294967295 (m.peaksOver + 1) } ∧
          t.report = s.report)

/-- R108, R111, R130, R131, R132, R133, R162: a considered block above the episode threshold opens an episode with the next
number, whether or not its notices pass the masks, EPISODE_OPEN and a capture: the channel's recording goes on with one
episode more; or the ring region becomes its recording, with the ring's last blocks as its pre-trigger and the first id
from the next capture id on that no capture holds, and the lowest FREE region its empty ring; while the memory is not owned,
or with no FREE region and captures protected, CAPTURE_MISSED instead; or the oldest STORED capture that no READ_CAPTURE
names is discarded, and the younger captures move up one place.
BlockEndAdvancesClock says how such steps make up the block end of any due list. -/
def Obligations.EpisodeOpensWithCapture : Prop :=
  ∀ (s : State) (c : Chan) (th : EpisodeThreshold),
    let m := s.monitor.get c
    let x := s.handed.results.get c
    let at' := s.handed.report.ended
    let n := s.nextEpisode
    let f := level (s.store.active.chan.get c).k x.yF 48
    let opened : Notice := ⟨some c, at', .episodeOpen n f th.limit⟩
    let offers (t : State) (ns : List Notice) : Prop :=
      TakesEvents s.report 2 → t.report.events = s.report.events ++ ns
    let after (t : State) (id : Option Nat) : Prop :=
      t.nextEpisode = (n + 1) % 2 ^ 32 ∧
        t.monitor = s.monitor.set c
          { m with
            phase := .opened, episode := some ⟨n, at', 1, x.energy, f, at', id⟩
            episodesOpened := min 4294967295 (m.episodesOpened + 1) }
    let k := s.capture
    let regions := k.regions
    let started (t : State) (held : Vector Role 16) (d : Descriptor) : Prop :=
      let ring := k.rings.get c
      after t (some d.id) ∧ AssignedId held k.nextId d.id ∧ d.age = (held.toList.filterMap Role.descriptor).length + 1 ∧
        t.capture.nextId = (if d.id < 65535 then d.id + 1 else 1) ∧ t.capture.rings = k.rings.set c ⟨0, 0, none⟩ ∧
        d.chan = c ∧ d.firstEpisode = n ∧ d.episodeCount = 1 ∧ d.trigger = at' ∧ d.length = d.pre ∧
        d.pre = min ring.fill k.preLength ∧ d.start = (ring.head + (10000 - d.pre)) % 10000 ∧
        d.truncated = false ∧ d.lentGap = false ∧ (d.dropout = true ↔ ∃ a, ring.dropAge = some a ∧ a < d.pre)
    let beingRead (d : Descriptor) : Prop := ∃ j, k.job = some j ∧ j.id = d.id
    s.blockWork = some [.episode c] → m.episode = none → m.lmax = some th → s.handed.classes.get c ≠ .excluded →
    x.fSettled = true → th.y < x.yF →
    ∃ t, exec .blockEnd s = .next t ∧
      (∀ (i : Fin 16) (d : Descriptor) (tail : Option Nat),
        (∀ j : Fin 16, ∀ d' tl, j < i → regions[j] = .recording d' tl → d'.chan ≠ c) →
        regions[i] = .recording d tail → d.chan = c →
        after t (some d.id) ∧ offers t [opened] ∧
          t.capture.regions = regions.set i (.recording { d with episodeCount := min 65535 (d.episodeCount + 1) } none) ∧
          t.capture.rings = k.rings ∧ t.capture.nextId = k.nextId) ∧
      ((∀ (j : Fin 16) (d : Descriptor) (tl : Option Nat), regions[j] = .recording d tl → d.chan ≠ c) →
        (k.lend ≠ .owned →
          after t none ∧ offers t [opened, ⟨some c, at', .captureMissed n .lent⟩] ∧
            t.capture = { k with closeBlock := .same false }) ∧
        (k.lend = .owned → k.protect = true → (∀ j : Fin 16, regions[j] ≠ .free) →
          after t none ∧ offers t [opened, ⟨some c, at', .captureMissed n .isProtected⟩] ∧
            t.capture = { k with closeBlock := .same false }) ∧
        ∀ ring : Fin 16, k.lend = .owned → (∀ j : Fin 16, regions[j] = .ring c ↔ j = ring) →
          (∀ i : Fin 16, regions[i] = .free → (∀ j : Fin 16, j < i → regions[j] ≠ .free) →
            ∃ d, started t regions d ∧ offers t [opened] ∧
              t.capture.regions = (regions.set ring (.recording d none)).set i (.ring c)) ∧
          ∀ (i : Fin 16) (d : Descriptor), k.protect = false → (∀ j : Fin 16, regions[j] ≠ .free) →
            regions[i] = .stored d → ¬beingRead d →
            (∀ (j : Fin 16) (d' : Descriptor), regions[j] = .stored d' → j ≠ i → ¬beingRead d' → d.age < d'.age) →
            ∃ d', started t (regions.set i .free) d' ∧ t.capture.regions[i] = .ring c ∧
              t.capture.regions[ring] = .recording d' none ∧
              (∀ j : Fin 16, j ≠ i → j ≠ ring → MovesUp d.age regions[j] t.capture.regions[j]) ∧
              offers t [opened, ⟨some c, at', .captureDiscarded d.id d.chan d.firstEpisode d.episodeCount n⟩])

/-- R107, R108, R109, R110, R111, R134: EPISODE_RELEASED takes the episode step of a channel at whose block end its release counter
reaches the release time: the episode closes with its record, whose last block counts, the machine is in IDLE, and its
capture begins its tail with this block as close block. A block above the release threshold releases nothing. In every
due list that takes the episode step, BLOCK_END lengthens an open episode and adds its energy; a considered block at or
below the release threshold turns OPEN into RELEASING with counter 1 and counts on in RELEASING, one above it returns to
OPEN with counter 0, and the maximum follows; a block that is not considered leaves the state. In IDLE a considered block
above the episode threshold opens an episode, and any other leaves IDLE.
That the row takes a block end's steps up to its own, and changes nothing where its event does not fall, is the model's
choice, log entry 3. -/
def Obligations.EpisodeReleasedCloses : Prop :=
  (∀ (s : State) (c : Chan) (l : List Task) (e : Episode) (th : EpisodeThreshold),
    let m := s.monitor.get c
    let x := s.handed.results.get c
    let at' := s.handed.report.ended
    let k := (s.store.active.chan.get c).k
    let f := level k x.yF 48
    Ready s (.episode c) l → m.episode = some e → m.lmax = some th →
    (s.handed.classes.get c = .excluded ∨ x.fSettled = false ∨ th.yr < x.yF →
      exec (.episodeReleased c) s = .next s) ∧
    (m.phase = .releasing → m.releaseCounter + 1 < m.releaseTime → exec (.episodeReleased c) s = .next s) ∧
    (s.handed.classes.get c ≠ .excluded → x.fSettled = true → x.yF ≤ th.yr →
      (m.phase = .releasing ∧ m.releaseTime ≤ m.releaseCounter + 1 ∨ m.phase = .opened ∧ m.releaseTime ≤ 1) →
      .capture c ∈ l → TakesEvents s.report 1 →
      ∃ t, exec (.episodeReleased c) s = .next t ∧ t.blockWork = some (l.erase (.episode c)) ∧
        t.monitor = s.monitor.set c { m with phase := .idle, releaseCounter := 0, episode := none } ∧
        t.report.events = s.report.events ++
          [⟨some c, at', .episodeClosed
            ⟨e.number, c, e.start, at', min 4294967295 (e.duration + 1), max e.maxLevel f,
              if e.maxLevel < f then at' else e.maxTime, level k (min (48000 * 2 ^ 46) (e.q + x.energy)) 48000,
              e.captureId, .released⟩⟩] ∧
        ∀ (i : Fin 16) (d : Descriptor), s.capture.recording c = some (i, d, none) → e.captureId = some d.id →
          t.capture.regions = s.capture.regions.set i (.recording d (some s.capture.tailLength)) ∧
            t.capture.closeBlock.get c = true)) ∧
  ∀ (s : State) (c : Chan) (l : List Task), s.blockWork = some l → l.Nodup → .episode c ∈ l →
    ∃ t, exec .blockEnd s = .next t ∧
      ((.boundary ∈ l → NoBoundary { s with handed := t.handed }) →
        let m := s.monitor.get c
        let x := t.handed.results.get c
        let at' := t.handed.report.ended
        let f := level (s.store.active.chan.get c).k x.yF 48
        let unconsidered : Prop := t.handed.classes.get c = .excluded ∨ x.fSettled = false ∨ m.lmax = none
        let gets (phase : EpisodePhase) (counter : Nat) (e : Option Episode) : Prop :=
          ((t.monitor.get c).phase, (t.monitor.get c).releaseCounter, (t.monitor.get c).episode) = (phase, counter, e)
        (∀ e, m.episode = some e →
          let e' : Episode :=
            { e with duration := min 4294967295 (e.duration + 1), q := min (48000 * 2 ^ 46) (e.q + x.energy) }
          let e'' : Episode := if e.maxLevel < f then { e' with maxLevel := f, maxTime := at' } else e'
          (unconsidered → gets m.phase m.releaseCounter (some e')) ∧
          ∀ th, m.lmax = some th → ¬unconsidered →
            (m.phase = .opened →
              (th.yr < x.yF → gets .opened m.releaseCounter (some e'')) ∧
              (x.yF ≤ th.yr → 1 < m.releaseTime → gets .releasing 1 (some e'')) ∧
              (x.yF ≤ th.yr → m.releaseTime ≤ 1 → gets .idle 0 none)) ∧
            (m.phase = .releasing →
              (th.yr < x.yF → gets .opened 0 (some e'')) ∧
              (x.yF ≤ th.yr → m.releaseCounter + 1 < m.releaseTime →
                gets .releasing (m.releaseCounter + 1) (some e'')) ∧
              (x.yF ≤ th.yr → m.releaseTime ≤ m.releaseCounter + 1 → gets .idle 0 none))) ∧
        (m.episode = none →
          (unconsidered ∨ (∀ th, m.lmax = some th → x.yF ≤ th.y) → gets m.phase m.releaseCounter none) ∧
          (∀ th, m.lmax = some th → ¬unconsidered → th.y < x.yF →
            ∃ n id, gets .opened m.releaseCounter (some ⟨n, at', 1, x.energy, f, at', id⟩))))

/-- R119, R120, R121, R122: TOGGLE_POINT takes the alert line's step of a block end at which the flash counter stands at
the half-period: it returns to 1, a pending setting comes into force, and the output follows the mode and the condition
formed from the monitor; FLASH with an open episode inverts it. Any other block end only counts, with OFF low, STEADY by
the condition and FLASH as it was.
That the row takes a block end's steps up to its own, and changes nothing where its event does not fall, is the model's
choice, log entry 3.
BlockEndAdvancesClock says how such steps make up the block end of any due list. -/
def Obligations.AlertLineToggles : Prop :=
  ∀ s : State,
    let cond (m : Quad MonitorChan) (spent episode none' : Bool) : Bool :=
      if Chan.all.any (fun c => (m.get c).spent) then spent
      else if Chan.all.any (fun c => decide ((m.get c).phase ≠ .idle)) then episode
      else none'
    (∀ l, s.blockWork = some l → l.Nodup → .alert ∈ l →
      (s.alert.flashCounter ≠ s.alert.halfPeriod → exec .togglePoint s = .next s) ∧
      (s.alert.flashCounter = s.alert.halfPeriod →
        ∃ t, exec .togglePoint s = .next t ∧
          t.blockWork = some ((l.filter fun u => !u.before .alert).erase .alert) ∧
          t.alert.flashCounter = 1 ∧ t.alert.pendingSetting = none ∧
          (t.alert.mode, t.alert.halfPeriod) = s.alert.pendingSetting.getD (s.alert.mode, s.alert.halfPeriod) ∧
          t.alert.high = match t.alert.mode with
            | .off => false
            | .steady => cond t.monitor true true false
            | .flash => cond t.monitor true (!s.alert.high) false)) ∧
    (s.blockWork = some [.alert] → s.alert.flashCounter ≠ s.alert.halfPeriod →
      exec .blockEnd s = .next
        { s with
          blockWork := none, acc := { s.acc with checkInBlock := s.checkMarks }
          capture := { s.capture with closeBlock := .same false }, choice := s.choice + 1
          alert :=
            { s.alert with
              flashCounter := s.alert.flashCounter + 1
              high := match s.alert.mode with
                | .off => false
                | .steady => cond s.monitor true true false
                | .flash => s.alert.high } })

/-- R125, R128, R134, R135, R137, R145, R187: CAPTURE_TAIL_END and CAPTURE_FULL take the capture step of a channel whose
recording ends with the block: an accepted block's 100 bytes enter the write buffer and the capture is one block longer, a
block that finds the buffer full marks it DROPOUT, one that falls while the memory is not owned LENT_GAP; and it becomes
STORED with CAPTURE_STORED. At 10,000 blocks it is marked TRUNCATED unless its tail has just run out. A close block is no
tail block: with a tail length of 0 the recording ends with it, and with a greater one its tail is still whole. Where the
recording goes on neither changes anything.
That the row takes a block end's steps up to its own, and changes nothing where its event does not fall, is the model's
choice, log entry 3. -/
def Obligations.CaptureStepEndsRecording : Prop :=
  ∀ (s : State) (c : Chan) (l : List Task) (i : Fin 16) (d : Descriptor) (tail : Option Nat),
    let k := s.capture
    let x := s.handed.results.get c
    let bytes := [BitVec.ofNat 8 x.gain,
      BitVec.ofNat 8 ((if x.overload then 1 else 0) + (if 0 < x.settlingSamples then 2 else 0)
        + (if s.handed.classes.get c = .excluded then 4 else 0)),
      BitVec.ofNat 8 s.handed.report.named, BitVec.ofNat 8 (s.handed.report.named / 256)] ++
      x.raw.flatMap fun v => [BitVec.ofInt 8 (v / 256), BitVec.ofInt 8 (v / 65536)]
    let entry : BufferEntry := ⟨i, (d.start + d.length) % 10000, bytes⟩
    let left : Option Nat := if k.closeBlock.get c = true then tail else tail.map (· - 1)
    Ready s (.capture c) l → k.recording c = some (i, d, tail) →
    let ends (o : Host.Outcome State Fault Refusal) (d' : Descriptor) : Prop :=
      ∃ t, o = .next t ∧ t.blockWork = some (l.erase (.capture c)) ∧
        t.capture.regions = k.regions.set i (.stored d') ∧ t.capture.rings = k.rings ∧
        t.capture.closeBlock.get c = false ∧
        (Accepts k →
          (k.inFlight.isSome = true → t.capture.buffer = k.buffer ++ [entry]) ∧
          (k.inFlight = none → k.job = none → k.buffer = [] →
            t.capture.inFlight = some (.write entry) ∧ t.capture.buffer = [])) ∧
        (¬Accepts k → t.capture.buffer = k.buffer ∧ t.capture.inFlight = k.inFlight) ∧
        (TakesEvents s.report 1 →
          t.report.events = s.report.events ++ [⟨some c, s.handed.report.ended, .captureStored i d'⟩])
    (Accepts k → d.length + 1 = 10000 →
      ends (exec (.captureFull c) s)
        { d with length := 10000, truncated := d.truncated || decide (left ≠ some 0) } ∧
      exec (.captureTailEnd c) s = .next s) ∧
    (¬Accepts k ∨ d.length + 1 < 10000 → left = some 0 →
      ends (exec (.captureTailEnd c) s) (blockRecorded k d) ∧ exec (.captureFull c) s = .next s) ∧
    (¬Accepts k ∨ d.length + 1 < 10000 → left ≠ some 0 →
      exec (.captureTailEnd c) s = .next s ∧ exec (.captureFull c) s = .next s)

/-- R128, R129, R134, R135, R137, R145: the capture step of a channel at a block end. With room in the buffer of an owned
memory a recording grows by one block and a ring's head, fill and dropout age move on; a full buffer drops the block and
marks the recording DROPOUT or sets the ring's dropout age to 0; while the memory is not owned the recording is marked
LENT_GAP and the ring stays. In every case a tail counts down by the block, unless it is the close block; a recording whose
tail runs out with the block becomes STORED.
BlockEndAdvancesClock says how such steps make up the block end of any due list. -/
def Obligations.CaptureStepKeepsBlocks : Prop :=
  ∀ (s : State) (c : Chan), s.blockWork = some [.capture c] →
    let k := s.capture
    let ring := k.rings.get c
    (∀ (i : Fin 16) (d : Descriptor) (tail : Option Nat), k.recording c = some (i, d, tail) →
      ¬Accepts k ∨ d.length + 1 < 10000 →
      let left : Option Nat := if k.closeBlock.get c = true then tail else tail.map (· - 1)
      ∃ t, exec .blockEnd s = .next t ∧ t.capture.rings = k.rings ∧ t.capture.closeBlock = .same false ∧
        (left ≠ some 0 →
          t.report = s.report ∧ t.capture.regions = k.regions.set i (.recording (blockRecorded k d) left)) ∧
        (left = some 0 → t.capture.regions = k.regions.set i (.stored (blockRecorded k d))) ∧
        (¬Accepts k → t.capture.buffer = k.buffer ∧ t.capture.inFlight = k.inFlight)) ∧
    ∀ i : Fin 16, k.recording c = none → (∀ j : Fin 16, k.regions[j] = .ring c ↔ j = i) →
      ∃ t, exec .blockEnd s = .next t ∧ t.report = s.report ∧ t.capture.regions = k.regions ∧
        (Accepts k →
          t.capture.rings = k.rings.set c
            ⟨(ring.head + 1) % 10000, min 10000 (ring.fill + 1),
              ring.dropAge.bind fun a => if a + 1 < 10000 then some (a + 1) else none⟩ ∧
          (k.inFlight.isSome = true → ∃ bytes, t.capture.buffer = k.buffer ++ [⟨i, ring.head, bytes⟩])) ∧
        (k.lend = .owned → 4 ≤ k.buffer.length →
          t.capture.rings = k.rings.set c { ring with dropAge := some 0 } ∧ t.capture.buffer = k.buffer) ∧
        (k.lend ≠ .owned → t.capture = { k with closeBlock := t.capture.closeBlock })

/-- R151, R152, R153, R154: CHECK_SETTLED takes the engine's block work of the 1000th settling block, and collecting
begins; CHECK_RESULT that of the block that reaches the measure time, and the check ends with its result: the level of the
check sum with this block's energy over 48 samples a block, the deviation from the expected level, PASS within the
tolerance, the staged K adjusted in the one case of R153, the freeze lifted and the channel's unit cleared. A block marked
as an overload ends the check with OVERLOAD. With no check running neither changes anything. In every due list BLOCK_END
counts a settling block, and adds the energy of a collected block short of the measure time to the check sum.
That the row takes a block end's steps up to its own, and changes nothing where its event does not fall, is the model's
choice, log entry 3. -/
def Obligations.CheckSettlesAndEnds : Prop :=
  (∀ (s : State) (l : List Task) (p : CheckParams), s.blockWork = some l → l.Nodup → .engine ∈ l →
    (.boundary ∈ l → s.store.commitPending = false) → s.check.params = some p →
    ∃ t, exec .blockEnd s = .next t ∧
      let x := t.handed.results.get p.chan
      let e := s.check
      (e.phase = .settling → x.overload = false →
        (e.counter + 1 < 1000 → t.check = { e with counter := e.counter + 1 }) ∧
        (e.counter = 999 → t.check = ⟨.collecting, some p, 0, 0, e.last⟩)) ∧
      (e.phase = .collecting → x.overload = false → e.counter + 1 < p.measureTime →
        t.check = { e with
          counter := e.counter + 1
          sum := e.sum + (match p.source with
            | .calibrator => x.energy
            | .internal => x.checkEnergy) }) ∧
      (e.phase ≠ .idle → x.overload = true →
        t.check = ⟨.idle, none, 0, 0, some (cutRecord s p .overload (s.store.staged.chan.get p.chan).k)⟩ ∧
          (t.range.get p.chan).frozen = false)) ∧
  ∀ (s : State) (l : List Task), Ready s .engine l →
    (s.check.phase = .idle → exec .checkSettled s = .next s ∧ exec .checkResult s = .next s) ∧
    ∀ p : CheckParams, s.check.params = some p →
      let x := s.handed.results.get p.chan
      let k := (s.store.active.chan.get p.chan).k
      (s.check.phase = .settling → x.overload = false → s.check.counter = 999 →
        exec .checkSettled s = .next
          { s with
            blockWork := some (l.erase .engine), check := ⟨.collecting, some p, 0, 0, s.check.last⟩ }) ∧
      (s.check.phase = .collecting → x.overload = false → s.check.counter + 1 = p.measureTime →
        let sum := s.check.sum + (match p.source with
          | .calibrator => x.energy
          | .internal => x.checkEnergy)
        let n := 48 * p.measureTime
        let measured := level k sum n
        let expected := match p.source with
          | .calibrator => p.expected
          | .internal => level k (n * (p.amplitude ^ 2 * 16 ^ (4 - p.gain) / 2 ^ 16)) n
        let dev := measured - expected
        let outcome : Adjustment :=
          if p.adjust = false then .notAsked
          else if p.source = .internal then .notCalibrator
          else if measured = -32768 then .noSignal
          else if 300 < |dev| then .outOfWindow
          else if s.store.commitPending = true then .commitPending
          else if k - dev < -10000 ∨ 15000 < k - dev then .kRange
          else .made
        let staged := s.store.staged.chan.get p.chan
        let stagedK := if outcome = .made then k - dev else staged.k
        let r : CheckRecord :=
          { chan := p.chan, source := p.source
            result := if measured ≠ -32768 ∧ |dev| ≤ p.tolerance then .pass else .fail
            measured, expected, deviation := if measured = -32768 then none else some dev, tolerance := p.tolerance
            measureTime := p.measureTime, blocksMeasured := p.measureTime, adjustment := outcome, stagedK }
        let u := s.unit.get p.chan
        ∃ t, exec .checkResult s = .next t ∧ t.blockWork = some (l.erase .engine) ∧
          t.check = ⟨.idle, none, 0, 0, some r⟩ ∧
          t.store = { s.store with
            staged := { s.store.staged with chan := s.store.staged.chan.set p.chan { staged with k := stagedK } } } ∧
          t.range = s.range.set p.chan { s.range.get p.chan with frozen := false } ∧
          t.unit = s.unit.set p.chan
            { u with
              main := ⟨⟨0, 0, 0, 0⟩, ⟨0, 0, 0, 0⟩, ⟨0, 0, 0, 0⟩⟩, peak := ⟨⟨0, 0, 0, 0⟩, ⟨0, 0, 0, 0⟩, ⟨0, 0, 0, 0⟩⟩
              yF := 0, yS := 0, fCount := 0, sCount := 0 } ∧
          (TakesEvents s.report 1 →
            t.report.events = s.report.events ++ [⟨some p.chan, s.handed.report.ended, .checkDone r⟩])) ∧
      (s.check.phase ≠ .idle → x.overload = true → s.blockWork = some [.engine] →
        ∃ t r, exec .blockEnd s = .next t ∧ t.check = ⟨.idle, none, 0, 0, some r⟩ ∧ r.result = .overload ∧
          r.chan = p.chan ∧ r.deviation = none ∧ r.measured = -32768 ∧ r.adjustment = .notCompleted ∧
          (t.range.get p.chan).frozen = false ∧
          (TakesEvents s.report 1 →
            t.report.events = s.report.events ++ [⟨some p.chan, s.handed.report.ended, .checkDone r⟩]))

/-- R166, R167: LIVE_POINT takes the live step of a block end at which the live counter reaches the live period: it returns
to 0, and with LIVE on a report of the selected items of every channel, as the block end leaves them, enters the live slot,
a report still unsent there being counted overwritten. Short of the period it changes nothing. Every block end sets the
image that SNAPSHOT reports (R168) to the stamp and item values it leaves, and but for power-on nothing else sets it.
That the row takes a block end's steps up to its own, and changes nothing where its event does not fall, is the model's
choice, log entry 3; that the report carries the overwritten count from before its own replacement is log entry 18, and
that the image waits for the next block end log entry 17. -/
def Obligations.LivePointFormsReport : Prop :=
  (∀ (i : Instr) (s t : State), exec i s = .next t → t.image ≠ s.image →
    .live ∈ s.dueSteps ∨ ∃ rate1 rate0, i = .powerOnReset rate1 rate0) ∧
  (∀ (s : State) (l : List Task), s.blockWork = some l → l.Nodup → .live ∈ l →
    ∃ t, exec .blockEnd s = .next t ∧ t.image.stamp = t.clock.now ∧
      ∀ c item, liveValue t.image.mode (t.k c) (t.image.chans.get c) item = itemValue t c item) ∧
  ∀ (s : State) (l : List Task), s.blockWork = some l → l.Nodup → .live ∈ l →
    (s.report.liveCounter + 1 < s.report.livePeriod → exec .livePoint s = .next s) ∧
    (s.report.livePeriod ≤ s.report.liveCounter + 1 → s.report.sending.isSome = true →
      ∃ t, exec .livePoint s = .next t ∧ t.report.liveCounter = 0 ∧
        t.blockWork = some ((l.filter fun u => !u.before .live).erase .live) ∧
        (s.report.liveOn = false →
          t.report.liveSlot = s.report.liveSlot ∧ t.report.liveOverwritten = s.report.liveOverwritten) ∧
        (s.report.liveOn = true →
          t.report.liveOverwritten =
            (if s.report.liveSlot.isSome then min 65535 (s.report.liveOverwritten + 1) else s.report.liveOverwritten) ∧
          ∃ r, t.report.liveSlot = some r ∧ r.stamp = t.clock.now ∧ r.overwritten = s.report.liveOverwritten ∧
            r.items = s.report.items ∧ ∀ c, r.values.get c = s.report.items.map (itemValue t c)))

/-! ### Link -/

/-- R173, R174, R175: the bytes of a link frame, taken one after another by a receiver in HUNT, put exactly its command at
the end of the command queue. With any other check byte the frame is discarded and counted, and so is a frame that finds
the command queue full. The bytes after the start byte sum to 0. -/
def Obligations.ReceiverTakesWholeFrame : Prop :=
  ∀ (s : State) (kind tag : Byte) (body : List Byte), body.length ≤ 1000 → s.blockEndBegun = false →
    s.link.receiver = .hunt →
    let take (bytes : List Byte) : Host.Outcome State Fault Refusal :=
      bytes.foldl (fun o b => match o with
        | .next s => exec (.byteReceived b) s
        | o => o) (.next s)
    let start := frameBytes kind tag body
    start.tail.foldl (· + ·) 0 = 0 ∧
    (s.link.queue.length < 4 →
      take start = .next { s with link := { s.link with queue := s.link.queue ++ [⟨kind, tag, body⟩] } }) ∧
    (4 ≤ s.link.queue.length →
      take start = .next { s with link := { s.link with overruns := min 65535 (s.link.overruns + 1) } }) ∧
    ∀ wrong, wrong ≠ start.getLast (by simp [start, frameBytes]) →
      take (start.dropLast ++ [wrong]) =
        .next { s with link := { s.link with checkErrors := min 65535 (s.link.checkErrors + 1) } }

/-- R174, R175: what BYTE_RECEIVED, FRAME_RECEIVED and RECEIVE_TIMEOUT do by the receiver's state. A length above 1000
returns the receiver to HUNT and is not counted. FRAME_RECEIVED completes the frame in progress (log entry 6), and
RECEIVE_TIMEOUT in HUNT changes nothing (log entry 3). -/
def Obligations.ReceiverFollowsItsTable : Prop :=
  ∀ (s : State) (b : Byte), s.blockEndBegun = false →
    let goes (i : Instr) (link : Link) : Prop := exec i s = .next { s with link := link }
    let l := s.link
    (l.receiver = .hunt →
      goes (.byteReceived b) (if b = 0xA5 then { l with receiver := .length none 0 } else l) ∧
        goes .receiveTimeout l ∧ goes (.frameReceived b) l) ∧
    (l.receiver ≠ .hunt →
      goes .receiveTimeout { l with receiver := .hunt, timeouts := min 65535 (l.timeouts + 1) }) ∧
    (∀ sum, l.receiver = .length none sum →
      goes (.byteReceived b) { l with receiver := .length (some b) (sum + b) } ∧ goes (.frameReceived b) l) ∧
    (∀ low sum, l.receiver = .length (some low) sum →
      goes (.byteReceived b)
        { l with
          receiver :=
            if 1000 < low.toNat + 256 * b.toNat then .hunt
            else .header (low.toNat + 256 * b.toNat) none (sum + b) } ∧
      goes (.frameReceived b) l) ∧
    (∀ len sum, l.receiver = .header len none sum →
      goes (.byteReceived b) { l with receiver := .header len (some b) (sum + b) } ∧ goes (.frameReceived b) l) ∧
    (∀ len kind sum, l.receiver = .header len (some kind) sum →
      goes (.byteReceived b)
        { l with receiver := if len = 0 then .check kind b [] (sum + b) else .body len kind b [] (sum + b) } ∧
      goes (.frameReceived b) l) ∧
    (∀ len kind tag got sum, l.receiver = .body len kind tag got sum →
      goes (.byteReceived b)
        { l with
          receiver :=
            if got.length + 1 < len then .body len kind tag (got ++ [b]) (sum + b)
            else .check kind tag (got ++ [b]) (sum + b) } ∧
      goes (.frameReceived b) l) ∧
    ∀ kind tag body sum, l.receiver = .check kind tag body sum →
      exec (.byteReceived b) s = exec (.frameReceived b) s ∧
      goes (.frameReceived b)
        (if sum + b ≠ 0 then { l with receiver := .hunt, checkErrors := min 65535 (l.checkErrors + 1) }
        else if 4 ≤ l.queue.length then { l with receiver := .hunt, overruns := min 65535 (l.overruns + 1) }
        else { l with receiver := .hunt, queue := l.queue ++ [⟨kind, tag, body⟩] })

/-- R162, R163, R169, R181: TRANSMIT_COMPLETE ends the transmission, and the first available leaves its store: the oldest
reply, then with EVENT on the oldest notice as kind 70h with its lost-before count, then with RECORD on the head record as
71h, then the live report as 72h; with none the transmitter is idle. An idle transmitter stays so (log entry 3). An event
that the masks bar is dropped; any other enters the event queue, whose oldest notice leaves a queue of 32 and is counted
in lost since last sent and in events lost; and then an idle transmitter chooses. -/
def Obligations.TransmitCompleteSelects : Prop :=
  (∀ (s : State) (c : Option Chan) (stamp : Stamp) (body : EventBody),
    let q := s.report
    let passes : Prop := q.kindMask.getLsbD (body.kindCode - 1) = true ∧
      ∀ d, c = some d → q.chanMask.getLsbD (d.number - 1) = true
    (¬passes → s.offer c stamp body = s) ∧
    (passes →
      (q.events.length < 32 →
        Selected { s with report := { q with events := q.events ++ [⟨c, stamp, body⟩] } } (s.offer c stamp body)) ∧
      (32 ≤ q.events.length →
        Selected
          { s with
            report :=
              { q with
                events := q.events.tail ++ [⟨c, stamp, body⟩], lostSinceSent := min 255 (q.lostSinceSent + 1)
                eventsLost := min 65535 (q.eventsLost + 1) } }
          (s.offer c stamp body)))) ∧
  ∀ s : State, s.blockEndBegun = false →
    let q := s.report
    (q.sending = none → exec .transmitComplete s = .next s) ∧
    (q.sending.isSome = true →
      (∀ m rest, q.replies = m :: rest →
        exec .transmitComplete s = .next { s with report := { q with replies := rest, sending := some m } }) ∧
      (q.replies = [] →
        (∀ n rest, q.eventOn = true → q.events = n :: rest →
          exec .transmitComplete s = .next
            { s with
              report :=
                { q with
                  events := rest, lostSinceSent := 0, sending := some ⟨0x70, 0, noticeBytes n q.lostSinceSent⟩ } }) ∧
        (q.eventOn = false ∨ q.events = [] →
          (∀ r rest, q.recordOn = true → s.fifo = r :: rest →
            exec .transmitComplete s = .next
              { s with fifo := rest, report := { q with sending := some ⟨0x71, 0, recordBytes r⟩ } }) ∧
          (q.recordOn = false ∨ s.fifo = [] →
            (∀ r, q.liveSlot = some r →
              exec .transmitComplete s = .next
                { s with report := { q with liveSlot := none, sending := some ⟨0x72, 0, liveReportBytes r⟩ } }) ∧
            (q.liveSlot = none →
              exec .transmitComplete s = .next { s with report := { q with sending := none } })))))

/-! ### Commands in general -/

/-- R161, R175, R176, R177: a command whose body has another length than its kind's is answered BAD_LENGTH, one of a kind that
is none of 01h to 1Dh UNKNOWN_KIND in kind 80h, and neither changes anything else. Until its execution can begin a command
waits in the command queue: behind an older one, behind a command in execution, or for a place in the reply queue.
That the row of a command whose execution cannot begin leaves it waiting there, or where it does not stand there yet is the
arrival of its frame, is the model's choice, log entry 6. -/
def Obligations.CommandsWaitOrAreRefused : Prop :=
  ∀ (s : State) (kind tag : Byte) (body : List Byte) (rest : List Command),
    let cmd : Command := ⟨kind, tag, body⟩
    let lengths := [0, 0, 0, 10, 0, 0, 18, 20, 6, 22, 16, 2, 4, 0, 0, 1, 3, 5, 15, 0, 0, 0, 0, 5, 2, 0, 0, 14, 0]
    (∀ len, 1 ≤ kind.toNat → lengths[kind.toNat - 1]? = some len → body.length ≠ len → Begins s cmd rest →
      ∃ q, Answered s.report q ⟨kind + 0x80, tag, [2]⟩ ∧
        exec (linkCommand kind tag body) s = .next { s.taken rest with report := q }) ∧
    (kind = 0 ∨ 0x1D < kind.toNat → Begins s cmd rest →
      ∃ q, Answered s.report q ⟨0x80, tag, [1]⟩ ∧
        exec (.unknownKind kind tag body) s = .next { s.taken rest with report := q }) ∧
    (s.blockEndBegun = false →
      (s.capture.job.isSome = true ∨ 4 ≤ s.report.replies.length ∨ ∃ c rest, s.link.queue = c :: rest ∧ c ≠ cmd) →
      let waits (link : Link) : Prop := exec (linkCommand kind tag body) s = .next { s with link := link }
      (cmd ∈ s.link.queue → waits s.link) ∧
      (cmd ∉ s.link.queue → s.link.queue.length < 4 → waits { s.link with queue := s.link.queue ++ [cmd] }) ∧
      (cmd ∉ s.link.queue → 4 ≤ s.link.queue.length →
        waits { s.link with overruns := min 65535 (s.link.overruns + 1) }))

/-- R178: IDENT answers the name RALIOR AM4, design issue 1 and the rate code. -/
def Obligations.IdentAnswersName : Prop :=
  ∀ (s : State) (tag : Byte) (rest : List Command), Begins s ⟨0x01, tag, []⟩ rest →
    ∃ q, Answered s.report q
        ⟨0x81, tag, [0, 0x52, 0x41, 0x4C, 0x49, 0x4F, 0x52, 0x20, 0x41, 0x4D, 0x34, 1, BitVec.ofNat 8 s.link.rate]⟩ ∧
      exec (.ident tag []) s = .next { s.taken rest with report := q }

/-- R82, R143, R168, R179, R184: the commands that only read change nothing but the reply queue. STATUS answers 112 bytes
with its groups at their offsets; SNAPSHOT the live report of the state after the most recent block end; READ_SETTINGS both
copies of its group; LIST_CAPTURES the capture settings, each channel's ring and 31 bytes a capture.
That SNAPSHOT describes the state as the most recent block end left it, under the items and the K in force as it is
executed, is log entry 17. -/
def Obligations.QueriesAnswer : Prop :=
  ∀ (s : State) (tag : Byte) (rest : List Command),
    let answers (i : Instr) (m : Message) : Prop :=
      ∃ q, Answered s.report q m ∧ exec i s = .next { s.taken rest with report := q }
    (Begins s ⟨0x02, tag, []⟩ rest → s.report.items.length ≤ 8 →
      ∃ b, answers (.status tag []) ⟨0x82, tag, b⟩ ∧ b.length = 112 ∧ b.getD 0 0 = 0 ∧
        b.getD 1 0 = (if s.port.stalled then 1 else 0) ∧ b.getD 2 0 = (if s.clock.isSet then 1 else 0) ∧
        (b.drop 3).take 10 = stampBytes s.clock.now ∧ b.getD 13 0 = BitVec.ofNat 8 s.port.frameCounter ∧
        b.getD 14 0 = BitVec.ofNat 8 (dayOfWeek s.clock.now) ∧
        b.getD 15 0 = (if s.clock.pendingLoad.isSome then 1 else 0) ∧
        b.getD 27 0 = BitVec.ofNat 8 s.acc.phase.code ∧
        b.getD 34 0 = (if s.store.commitPending then 1 else 0) ∧ b.getD 35 0 = BitVec.ofNat 8 s.fifo.length ∧
        b.getD 38 0 = BitVec.ofNat 8 s.alert.mode.code ∧ b.getD 48 0 = (if s.alert.high then 1 else 0) ∧
        b.getD 49 0 = BitVec.ofNat 8 s.check.phase.code ∧ b.getD 77 0 = BitVec.ofNat 8 s.capture.lend.code ∧
        b.getD 81 0 = BitVec.ofNat 8 s.report.replies.length ∧ b.getD 82 0 = BitVec.ofNat 8 s.report.events.length ∧
        b.getD 110 0 = BitVec.ofNat 8 rest.length ∧ b.getD 111 0 = BitVec.ofNat 8 s.link.rate) ∧
    (Begins s ⟨0x14, tag, []⟩ rest →
      answers (.snapshot tag []) ⟨0x94, tag, 0 :: liveReportBytes
        { stamp := s.image.stamp, overwritten := s.report.liveOverwritten, items := s.report.items
          values := s.image.chans.mapWith fun c x =>
            s.report.items.map (liveValue s.image.mode (s.store.active.chan.get c).k x) }⟩) ∧
    (∀ g : Byte, Begins s ⟨0x10, tag, [g]⟩ rest →
      (7 ≤ g.toNat → answers (.readSettings tag [g]) ⟨0x90, tag, [3]⟩) ∧
      (g.toNat ≤ 6 → ∃ staged active, groupBytes g.toNat s.store.staged = some staged ∧
        groupBytes g.toNat s.store.active = some active ∧
        staged.length = [6, 41, 41, 41, 41, 180, 240].getD g.toNat 0 ∧ active.length = staged.length ∧
        answers (.readSettings tag [g])
          ⟨0x90, tag, [0, g, if s.store.commitPending then 1 else 0] ++ staged ++ active⟩)) ∧
    (Begins s ⟨0x17, tag, []⟩ rest →
      ∃ captures, answers (.listCaptures tag []) ⟨0x97, tag,
          [0, BitVec.ofNat 8 s.capture.lend.code, if s.capture.protect then 1 else 0] ++ u16 s.capture.preLength ++
            u16 s.capture.tailLength ++ Chan.all.flatMap s.capture.ringBytes ++
            [BitVec.ofNat 8 s.capture.held.length] ++ captures⟩ ∧
        ((s.capture.held.map (·.age)).Perm ((List.range s.capture.held.length).map (· + 1)) →
          captures.length = 31 * s.capture.held.length))

/-! ### Settings -/

/-- R18, R19, R28, R65, R75, R76, R77, R78: with no commit pending an edit whose fields are legal (EDIT_CHANNEL,
EDIT_RANGE, EDIT_GAINCODES, EDIT_WEIGHTING, EDIT_LIMITS, EDIT_INTERVAL, EDIT_ACTIVITY) replaces its settings in the staged
copy, and nothing else. -/
def Obligations.EditsReplaceStaged : Prop :=
  ∀ (s : State) (tag : Byte) (rest : List Command), s.store.commitPending = false →
    let edits (kind : Byte) (body : List Byte) (x : Settings) : Prop :=
      Begins s ⟨kind, tag, body⟩ rest →
        ∃ q, Answered s.report q ⟨kind + 0x80, tag, [0]⟩ ∧
          exec (linkCommand kind tag body) s = .next
            { s.taken rest with report := q, store := { s.store with staged := x } }
    let x := s.store.staged
    (∀ c (v : ChannelSettings), v.valid = true →
      edits 0x07 (u8 c.number ++ channelSettingsBytes v) { x with chan := x.chan.set c v }) ∧
    (∀ c (v : RangeSettings), v.valid = true →
      edits 0x08 (u8 c.number ++ rangeSettingsBytes v) { x with range := x.range.set c v }) ∧
    (∀ c (v : GainCodes), v.valid = true →
      edits 0x09 (u8 c.number ++ gainCodesBytes v) { x with codes := x.codes.set c v }) ∧
    (∀ (set sec : Nat) (v : Coeffs), 1 ≤ set → set ≤ 3 → 1 ≤ sec → sec ≤ 3 → v.legal →
      ∃ x', edits 0x0A (editWeightingBody set sec v) x' ∧ x' = { x with w1 := x'.w1, w2 := x'.w2, w3 := x'.w3 } ∧
        x'.sectionOf set sec = v ∧
        ∀ set' sec', 1 ≤ set' → set' ≤ 3 → 1 ≤ sec' → sec' ≤ 3 → (set', sec') ≠ (set, sec) →
          x'.sectionOf set' sec' = x.sectionOf set' sec') ∧
    (∀ (i : Fin 16) (v : ScheduleEntry), v.legal →
      edits 0x0B (editLimitsBody i v) { x with schedule := x.schedule.set i v }) ∧
    (∀ base factor : Nat, (base = 1 ∨ base = 10 ∨ base = 60) → 1 ≤ factor → factor ≤ 60 →
      edits 0x0C (u8 base ++ u8 factor) { x with base := base, factor := factor }) ∧
    ∀ (mode : ActivityMode) (high : Bool) (guard : Nat), guard ≤ 5000 →
      edits 0x0D (editActivityBody mode high guard) { x with mode := mode, polarityHigh := high, guardLength := guard }

/-- R18, R19, R28, R65, R75, R76, R77, R78: while a commit is pending every edit is refused with WRONG_STATE; with none
pending, an edit with a field outside its range or against its constraints is refused with BAD_VALUE. A refused edit
changes nothing. -/
def Obligations.EditsRefused : Prop :=
  ∀ (s : State) (kind tag : Byte) (body : List Byte) (rest : List Command), Begins s ⟨kind, tag, body⟩ rest →
    let refused (status : Byte) : Prop :=
      ∃ q, Answered s.report q ⟨kind + 0x80, tag, [status]⟩ ∧
        exec (linkCommand kind tag body) s = .next { s.taken rest with report := q }
    let badChannel : Prop := (body.getD 0 0).toNat = 0 ∨ 4 < (body.getD 0 0).toNat
    (s.store.commitPending = true →
      (∃ len, (kind.toNat, len) ∈ [(7, 18), (8, 20), (9, 6), (10, 22), (11, 16), (12, 2), (13, 4)] ∧
        body.length = len) → refused 4) ∧
    (s.store.commitPending = false →
      (kind = 0x07 → body.length = 18 →
        badChannel ∨ 1 < (body.getD 1 0).toNat ∨
          (∃ c v, body = u8 c ++ channelSettingsBytes v ∧ v.valid = false ∧ -32768 ≤ v.k ∧ v.k ≤ 32767 ∧
          v.mainSet < 256 ∧ v.peakSet < 256 ∧ -32768 ≤ v.limitOffset ∧ v.limitOffset ≤ 32767 ∧ v.h0 < 65536 ∧
          v.n1 < 256 ∧ v.n2 < 256 ∧ v.n3 < 256 ∧ v.warnPercent < 256 ∧ v.hysteresis < 65536 ∧
          v.releaseTime < 65536) → refused 3) ∧
      (kind = 0x08 → body.length = 20 →
        badChannel ∨ (∃ c v, body = u8 c ++ rangeSettingsBytes v ∧ v.valid = false ∧ v.gMin < 256 ∧ v.gMax < 256 ∧
          v.tImm < 2 ^ 32 ∧ v.tHi < 2 ^ 32 ∧ v.tLo < 2 ^ 32 ∧ v.window < 65536 ∧ v.holdOff < 65536 ∧
          v.settle < 256) → refused 3) ∧
      (kind = 0x09 → body.length = 6 → badChannel ∨ (∃ b ∈ body.tail, 15 < b.toNat) → refused 3) ∧
      (kind = 0x0A → body.length = 22 →
        (∃ b ∈ body.take 2, b.toNat = 0 ∨ 3 < b.toNat) → refused 3) ∧
      (kind = 0x0B → body.length = 16 →
        15 < (body.getD 0 0).toNat ∨ 1 < (body.getD 1 0).toNat ∨ 127 < (body.getD 2 0).toNat ∨
          (∃ (i : Byte) (v : ScheduleEntry), body = i :: scheduleEntryBytes v ∧ v.startMinute < 65536 ∧
            v.endMinute < 65536 ∧
            (1439 < v.startMinute ∨ 1440 < v.endMinute ∨ v.endMinute ≤ v.startMinute ∨
              ∃ x, (v.leq = some x ∨ v.lmax = some x ∨ v.peak = some x) ∧ 20000 < x ∧ x < 65536)) → refused 3) ∧
      (kind = 0x0C → body.length = 2 →
        (body.getD 0 0 ≠ 1 ∧ body.getD 0 0 ≠ 10 ∧ body.getD 0 0 ≠ 60) ∨ (body.getD 1 0).toNat = 0 ∨
          60 < (body.getD 1 0).toNat → refused 3) ∧
      (kind = 0x0D → body.length = 4 →
        2 < (body.getD 0 0).toNat ∨ 1 < (body.getD 1 0).toNat ∨
          5000 < (body.getD 2 0).toNat + 256 * (body.getD 3 0).toNat → refused 3))

/-- R16, R29, R79, R80, R81, R154, R157: COMMIT in MEASURING makes the commit pending and no more; in UNTIMED and HELD it is applied at once: the
staged copy becomes active, CONFIG_APPLIED is offered, the range controllers and units take the new settings, and the mark
and the clamps' gain changes are carried. A running check whose channel's K or filters the commit changes ends with
CONFIG_CHANGED, and any other runs on. DISCARD makes the staged copy the active one and cancels a pending commit.
A notice the effect offers comes before the reply (log entry 7). -/
def Obligations.CommitAndDiscard : Prop :=
  ∀ (s : State) (tag : Byte) (rest : List Command),
    (Begins s ⟨0x0F, tag, []⟩ rest →
      ∃ q, Answered s.report q ⟨0x8F, tag, [0]⟩ ∧
        exec (.discard tag []) s = .next
          { s.taken rest with report := q, store := ⟨s.store.active, s.store.active, false⟩ }) ∧
    (Begins s ⟨0x0E, tag, []⟩ rest →
      (s.acc.phase = .measuring →
        ∃ q, Answered s.report q ⟨0x8E, tag, [0]⟩ ∧
          exec (.commit tag []) s = .next
            { s.taken rest with report := q, store := { s.store with commitPending := true } }) ∧
      (s.acc.phase ≠ .measuring →
        ∃ t ns, exec (.commit tag []) s = .next t ∧
          t = { s.taken rest with
            report := t.report, store := t.store, range := t.range, unit := t.unit, acc := t.acc, check := t.check
            fifo := t.fifo } ∧
          t.store = ⟨s.store.staged, s.store.staged, false⟩ ∧ CommitTaken s t s.clock.now false ns ∧
          RepliedLast t.report ⟨0x8E, tag, [0]⟩ ∧
          (TakesEvents s.report ns.length → t.fifo = s.fifo ∧ t.report.events = s.report.events ++ ns) ∧
          t.acc = { s.acc with
            carriedConfig := true, carriedGain := t.acc.carriedGain, guardRemaining := t.acc.guardRemaining } ∧
          ∀ c, t.acc.carriedGain.get c =
            min 4294967295
              (s.acc.carriedGain.get c + (s.range.get c).clampCount (s.store.staged.range.get c))))

/-! ### Clock, measurement, alert, reporting -/

/-- R61, R87, R88: SET_TIME puts a legal time in the pending load, in place of any there, and answers any other BAD_VALUE.
HOLD is refused in UNTIMED, sets hold pending in MEASURING and cancels a pending opening in HELD. RESUME is refused in
UNTIMED, makes an opening pending in HELD, and in MEASURING cancels a pending hold, or leaves a pending opening, or sets
restart pending. Nothing else changes. -/
def Obligations.SetTimeHoldResume : Prop :=
  ∀ (s : State) (tag : Byte) (rest : List Command),
    let does (kind : Byte) (body : List Byte) (status : Byte) (t : State) : Prop :=
      Begins s ⟨kind, tag, body⟩ rest →
        ∃ q, Answered s.report q ⟨kind + 0x80, tag, [status]⟩ ∧
          exec (linkCommand kind tag body) s = .next { t with report := q }
    let s' := s.taken rest
    (∀ u : Stamp, u.year < 65536 → u.month < 256 → u.day < 256 → u.second < 2 ^ 32 → u.block < 65536 →
      (u.valid = true → does 0x04 (stampBytes u) 0 { s' with clock := { s.clock with pendingLoad := some u } }) ∧
      (u.valid = false → does 0x04 (stampBytes u) 3 s')) ∧
    (s.acc.phase = .untimed → does 0x05 [] 4 s' ∧ does 0x06 [] 4 s') ∧
    (s.acc.phase = .measuring →
      does 0x05 [] 0 { s' with acc := { s.acc with holdPending := true } } ∧
      (s.acc.holdPending = true → does 0x06 [] 0 { s' with acc := { s.acc with holdPending := false } }) ∧
      (s.acc.holdPending = false → s.acc.openingPending = true → does 0x06 [] 0 s') ∧
      (s.acc.holdPending = false → s.acc.openingPending = false →
        does 0x06 [] 0 { s' with acc := { s.acc with restartPending := true } })) ∧
    (s.acc.phase = .held →
      does 0x05 [] 0 { s' with acc := { s.acc with openingPending := false } } ∧
      does 0x06 [] 0 { s' with acc := { s.acc with openingPending := true } })

/-- R122, R140, R170: SET_ALERT makes mode and clamped half-period the pending setting; SET_CAPTURE puts protect and the
clamped lengths in force; SET_REPORTING replaces the reporting settings, returns the live counter to 0, and empties the
live slot if LIVE is off. Each answers the values as clamped; a field outside its codes is BAD_VALUE.
That a transmitter standing idle as SET_REPORTING turns EVENT on begins the oldest notice ahead of the command's own reply
is log entry 7. -/
def Obligations.SettersClampAndAnswer : Prop :=
  ∀ (s : State) (tag : Byte) (rest : List Command),
    let s' := s.taken rest
    let q := s.report
    let does (kind : Byte) (body answer : List Byte) (t : State) : Prop :=
      Begins s ⟨kind, tag, body⟩ rest →
        ∃ q, Answered s.report q ⟨kind + 0x80, tag, answer⟩ ∧
          exec (linkCommand kind tag body) s = .next { t with report := q }
    (∀ (m : AlertMode) (h : Nat), h < 65536 →
      does 0x11 (u8 m.code ++ u16 h) ([0] ++ u16 (max 50 (min 2000 h)))
        { s' with alert := { s.alert with pendingSetting := some (m, max 50 (min 2000 h)) } }) ∧
    (∀ m a b : Byte, 2 < m.toNat → does 0x11 [m, a, b] [3] s') ∧
    (∀ (p : Bool) (pre tail : Nat), pre < 65536 → tail < 65536 →
      does 0x12 (flag p ++ u16 pre ++ u16 tail) ([0] ++ u16 (min 2000 pre) ++ u16 (min 5000 tail))
        { s' with
          capture := { s.capture with protect := p, preLength := min 2000 pre, tailLength := min 5000 tail } }) ∧
    (∀ p a b c d : Byte, 1 < p.toNat → does 0x12 [p, a, b, c, d] [3] s') ∧
    (∀ (r : Reporting) (period : Nat) (fill : List Byte), r.items ≠ [] → r.items.Nodup →
      r.items.length + fill.length = 8 → period < 65536 →
      Begins s ⟨0x13, tag, setReportingBody r period fill⟩ rest →
      ∃ t, exec (.setReporting tag (setReportingBody r period fill)) s = .next t ∧
        t = { s' with report := t.report, fifo := t.fifo } ∧
        RepliedLast t.report ⟨0x93, tag, [0] ++ u16 (max 100 (min 10000 period))⟩ ∧
        t.report.eventOn = r.eventOn ∧ t.report.recordOn = r.recordOn ∧ t.report.liveOn = r.liveOn ∧
        t.report.kindMask = r.kindMask ∧ t.report.chanMask = r.chanMask ∧ t.report.items = r.items ∧
        t.report.livePeriod = max 100 (min 10000 period) ∧ t.report.liveCounter = 0 ∧
        (r.liveOn = false → t.report.liveSlot = none) ∧
        (q.sending.isSome = true → t.fifo = s.fifo ∧ t.report.events = q.events ∧ t.report.sending = q.sending ∧
          (r.liveOn = true → t.report.liveSlot = q.liveSlot)) ∧
        (q.sending = none → q.replies = [] → r.eventOn = true → q.eventOn = false → ∀ n ns, q.events = n :: ns →
          t.report.sending = some ⟨0x70, 0, noticeBytes n q.lostSinceSent⟩ ∧ t.report.events = ns)) ∧
    ∀ body : List Byte, body.length = 15 →
      (7 < (body.getD 0 0).toNat ∨ 127 < (body.getD 2 0).toNat ∨ 15 < (body.getD 3 0).toNat ∨ body.getD 6 0 = 0 ∨
        8 < (body.getD 6 0).toNat ∨ (∃ b ∈ (body.drop 7).take (body.getD 6 0).toNat, b = 0 ∨ 8 < b.toNat) ∨
        ¬((body.drop 7).take (body.getD 6 0).toNat).Nodup) →
      does 0x13 body [3] s'

/-- R99, R163, R165: READ_RECORD answers the head record, 116 bytes after the status, and removes it; READ_EVENT the oldest
notice with its lost-before count, which returns to 0. With nothing there each is refused with EMPTY. -/
def Obligations.ReadRecordAndEvent : Prop :=
  ∀ (s : State) (tag : Byte) (rest : List Command),
    (Begins s ⟨0x15, tag, []⟩ rest →
      (∀ r rs, s.fifo = r :: rs → (recordBytes r).length = 116 ∧
        ∃ q, Answered s.report q ⟨0x95, tag, 0 :: recordBytes r⟩ ∧
          exec (.readRecord tag []) s = .next { s.taken rest with report := q, fifo := rs }) ∧
      (s.fifo = [] → ∃ q, Answered s.report q ⟨0x95, tag, [5]⟩ ∧
        exec (.readRecord tag []) s = .next { s.taken rest with report := q })) ∧
    (Begins s ⟨0x16, tag, []⟩ rest →
      (∀ n ns, s.report.events = n :: ns →
        ∃ q, Answered { s.report with events := ns, lostSinceSent := 0 } q
            ⟨0x96, tag, 0 :: noticeBytes n s.report.lostSinceSent⟩ ∧
          exec (.readEvent tag []) s = .next { s.taken rest with report := q }) ∧
      (s.report.events = [] → ∃ q, Answered s.report q ⟨0x96, tag, [5]⟩ ∧
        exec (.readEvent tag []) s = .next { s.taken rest with report := q }))

/-! ### Capture memory -/

/-- R138, R139, R141, R142, R176: READ_CAPTURE is refused with WRONG_STATE while the memory is not owned, NOT_FOUND for an
id no capture has, WRONG_STATE for a recording and BAD_VALUE for a first block beyond the capture; otherwise it stays in
execution, with a reply place reserved, and reads its clamped count of blocks. Each MEMORY_READ_DONE brings the 100 bytes
of a position; the last one forms the reply. The port's next operation is the arbiter's choice (NextOperation).
RELEASE_CAPTURE makes a STORED capture's region FREE, and the younger captures move up, each in its role and region.
At a position that does not exist the model faults (log entry 20). -/
def Obligations.CaptureReadsAndRelease : Prop :=
  (∀ (s : State) (tag count : Byte) (id first : Nat) (rest : List Command), id < 65536 → first < 65536 →
    let body := u16 id ++ u16 first ++ [count]
    let k := s.capture
    Begins s ⟨0x18, tag, body⟩ rest →
    let refused (status : Byte) : Prop :=
      ∃ q, Answered s.report q ⟨0x98, tag, [status]⟩ ∧
        exec (.readCapture tag body) s = .next { s.taken rest with report := q }
    (k.lend ≠ .owned → refused 4) ∧
    (k.lend = .owned → (∀ (i : Fin 16) (d : Descriptor), k.regions[i].descriptor = some d → d.id ≠ id) → refused 6) ∧
    ∀ i : Fin 16, (∀ (j : Fin 16) (d : Descriptor), k.regions[j].descriptor = some d → d.id = id → j = i) →
      k.lend = .owned →
      (∀ d tail, k.regions[i] = .recording d tail → d.id = id → refused 4) ∧
      ∀ d, k.regions[i] = .stored d → d.id = id →
        (d.length ≤ first → refused 3) ∧
        (first < d.length →
          ∃ t, exec (.readCapture tag body) s = .next t ∧
            t = { s.taken rest with capture := t.capture, report := { s.report with reserved := 1 } } ∧
            t.capture = { k with job := t.capture.job, inFlight := t.capture.inFlight, buffer := t.capture.buffer } ∧
            t.capture.job =
              some ⟨tag, id, i, d.start, first, min (max 1 (min 8 count.toNat)) (d.length - first), []⟩ ∧
            (k.inFlight.isSome = true → t.capture.inFlight = k.inFlight ∧ t.capture.buffer = k.buffer) ∧
            (k.inFlight = none → k.buffer = [] →
              t.capture.inFlight = some (.read i ((d.start + first) % 10000))) ∧
            (k.inFlight = none → NextOperation k.buffer t.capture.job t.capture.inFlight t.capture.buffer))) ∧
  (∀ (s : State) (i : Fin 16) (p : Nat), s.blockEndBegun = false → s.capture.inFlight = some (.read i p) →
    (10000 ≤ p → exec .memoryReadDone s = .fault (.outsideCaptureMemory p)) ∧
    (p < 10000 → ∀ j, s.capture.job = some j →
      ∃ block : List Byte, block.length = 100 ∧
        (∀ a < 100, block.getD a 0 = Memory.read s.memory (i.val * 1000000 + 100 * p + a)) ∧
        ∃ t, exec .memoryReadDone s = .next t ∧
          t = { s with capture := t.capture, report := t.report } ∧
          t.capture = { s.capture with job := t.capture.job, inFlight := t.capture.inFlight, buffer := t.capture.buffer } ∧
          (s.capture.lend ≠ .lent →
            NextOperation s.capture.buffer t.capture.job t.capture.inFlight t.capture.buffer) ∧
          (j.got.length + 1 < j.count →
            t.capture.job = some { j with got := j.got ++ [block] } ∧ t.report = s.report) ∧
          (j.count ≤ j.got.length + 1 →
            t.capture.job = none ∧
            Answered { s.report with reserved := 0 } t.report
              ⟨0x98, j.tag, [0] ++ u16 j.id ++ u16 j.first ++ u8 j.count ++ (j.got ++ [block]).flatten⟩))) ∧
  ∀ (s : State) (tag : Byte) (id : Nat) (rest : List Command), id < 65536 →
    let body := u16 id
    let k := s.capture
    Begins s ⟨0x19, tag, body⟩ rest →
    let answers (status : Byte) (t : State) : Prop :=
      ∃ q, Answered s.report q ⟨0x99, tag, [status]⟩ ∧
        exec (.releaseCapture tag body) s = .next { t with report := q }
    ((∀ (i : Fin 16) (d : Descriptor), k.regions[i].descriptor = some d → d.id ≠ id) →
      answers 6 (s.taken rest)) ∧
    ∀ i : Fin 16, (∀ (j : Fin 16) (d : Descriptor), k.regions[j].descriptor = some d → d.id = id → j = i) →
      (∀ d tail, k.regions[i] = .recording d tail → d.id = id → answers 4 (s.taken rest)) ∧
      ∀ d, k.regions[i] = .stored d → d.id = id →
        ∃ regions : Vector Role 16, answers 0 { s.taken rest with capture := { k with regions := regions } } ∧
          regions[i] = .free ∧ ∀ j : Fin 16, j ≠ i → MovesUp d.age k.regions[j] regions[j]

/-- R126, R138, R139, R144, R145: LEND_MEMORY begins the drain of an owned memory, and with nothing to drain the memory is LENT
at once and MEMORY_LENT offered after the reply; RECLAIM_MEMORY of a lent memory makes it owned, with every ring empty and
any contents (log entry 10). Each is refused with WRONG_STATE in any other lend state. MEMORY_WRITE_DONE puts the block's
bytes at its position, leaves every other byte, and the port goes on with the arbiter's choice (NextOperation); the last
write of a drain makes the memory LENT.
The reply comes before MEMORY_LENT (log entry 7); a completion with nothing of its kind in flight changes nothing (log
entry 3); at a position that does not exist the model faults (log entry 20). -/
def Obligations.LendReclaimAndWrites : Prop :=
  (∀ (s : State) (tag : Byte) (rest : List Command),
    let s' := s.taken rest
    let k := s.capture
    let refused (kind status : Byte) : Prop :=
      ∃ q, Answered s.report q ⟨kind + 0x80, tag, [status]⟩ ∧
        exec (linkCommand kind tag []) s = .next { s' with report := q }
    (Begins s ⟨0x1A, tag, []⟩ rest →
      (k.lend ≠ .owned → refused 0x1A 4) ∧
      (k.lend = .owned →
        (k.buffer ≠ [] ∨ k.inFlight.isSome = true →
          ∃ q, Answered s.report q ⟨0x9A, tag, [0]⟩ ∧
            exec (.lendMemory tag []) s = .next { s' with report := q, capture := { k with lend := .lending } }) ∧
        (k.buffer = [] → k.inFlight = none →
          ∃ t, exec (.lendMemory tag []) s = .next t ∧
            t = { s' with report := t.report, fifo := t.fifo, capture := { k with lend := .lent } } ∧
            (s.report.sending.isSome = true → t.fifo = s.fifo ∧
              t.report.replies = s.report.replies ++ [⟨0x9A, tag, [0]⟩]) ∧
            (TakesEvents s.report 1 →
              t.report.events = s.report.events ++ [⟨none, s.clock.now, .memoryLent⟩])))) ∧
    (Begins s ⟨0x1B, tag, []⟩ rest →
      (k.lend ≠ .lent → refused 0x1B 4) ∧
      (k.lend = .lent →
        ∃ q memory, Answered s.report q ⟨0x9B, tag, [0]⟩ ∧ Memory.wf memory = true ∧
          exec (.reclaimMemory tag []) s = .next
            { s' with
              report := q, memory := memory, choice := s.choice + 1
              capture := { k with lend := .owned, rings := .same ⟨0, 0, none⟩ } }))) ∧
  (∀ s : State, s.blockEndBegun = false →
    ((∀ e, s.capture.inFlight ≠ some (.write e)) → exec .memoryWriteDone s = .next s) ∧
    ((∀ i p, s.capture.inFlight ≠ some (.read i p)) → exec .memoryReadDone s = .next s)) ∧
  ∀ (s : State) (e : BufferEntry), s.blockEndBegun = false → s.capture.inFlight = some (.write e) →
    let k := s.capture
    let base := e.region.val * 1000000 + 100 * e.position
    (10000 ≤ e.position → exec .memoryWriteDone s = .fault (.outsideCaptureMemory e.position)) ∧
    (e.position < 10000 →
      ∃ t, exec .memoryWriteDone s = .next t ∧
        t = { s with memory := t.memory, capture := t.capture, report := t.report, fifo := t.fifo } ∧
        (MemoryHeld s → ∀ a,
          (base ≤ a → a < base + e.bytes.length → Memory.read t.memory a = e.bytes.getD (a - base) 0) ∧
          (a < base ∨ base + e.bytes.length ≤ a → Memory.read t.memory a = Memory.read s.memory a)) ∧
        t.capture.regions = k.regions ∧ t.capture.rings = k.rings ∧ t.capture.job = k.job ∧
        (k.lend ≠ .lending ∨ k.buffer ≠ [] → t.report = s.report ∧ t.capture.lend = k.lend) ∧
        (k.lend ≠ .lent → NextOperation k.buffer k.job t.capture.inFlight t.capture.buffer) ∧
        (k.lend ≠ .lent → k.job = none → ∀ b bs, k.buffer = b :: bs →
          t.capture.inFlight = some (.write b) ∧ t.capture.buffer = bs) ∧
        (k.buffer = [] → k.job = none → t.capture.inFlight = none) ∧
        (k.lend = .lending → k.buffer = [] → k.job = none →
          t.capture.lend = .lent ∧
          (TakesEvents s.report 1 →
            t.report.events = s.report.events ++ [⟨none, s.clock.now, .memoryLent⟩])))

/-! ### Check engine and soft reset -/

/-- R15, R113, R116, R134, R135, R148, R149, R154, R156: START_CHECK is refused with WRONG_STATE while a check runs or in STALLED, and with
BAD_VALUE for its fields; otherwise the check begins in SETTLING with its parameters, the channel's range controller
freezes with its window restarted, the block in progress is marked, and an open episode closes with CHECK, whose recording
begins its tail or with a tail length of 0 becomes STORED. ABORT_CHECK is
refused with no check running; otherwise the check ends with ABORTED, the freeze is lifted and the unit cleared.
A notice the effect offers comes before the reply (log entry 7). -/
def Obligations.StartAndAbortCheck : Prop :=
  (∀ (s : State) (tag : Byte) (p : CheckParams) (rest : List Command), 1 ≤ p.tolerance → p.tolerance ≤ 500 →
    1000 ≤ p.measureTime → p.measureTime ≤ 30000 →
    (p.source = .calibrator → 0 ≤ p.expected ∧ p.expected ≤ 20000 ∧ p.amplitude < 2 ^ 32 ∧ p.gain < 256) →
    (p.source = .internal → -32768 ≤ p.expected ∧ p.expected ≤ 32767 ∧ 1 ≤ p.amplitude ∧ p.amplitude ≤ 8000000 ∧
      p.gain ≤ 4 ∧ 256 ≤ p.amplitude * 4 ^ (4 - p.gain)) →
    Begins s ⟨0x1C, tag, startCheckBody p⟩ rest →
    (s.check.phase ≠ .idle ∨ s.port.stalled = true →
      ∃ q, Answered s.report q ⟨0x9C, tag, [4]⟩ ∧
        exec (.startCheck tag (startCheckBody p)) s = .next { s.taken rest with report := q }) ∧
    (s.check.phase = .idle → s.port.stalled = false →
      ∃ t, exec (.startCheck tag (startCheckBody p)) s = .next t ∧
        t = { s.taken rest with
          check := t.check, acc := t.acc, range := t.range, monitor := t.monitor, capture := t.capture
          report := t.report, fifo := t.fifo } ∧
        t.check = ⟨.settling, some p, 0, 0, s.check.last⟩ ∧
        t.acc = { s.acc with checkInBlock := s.acc.checkInBlock.set p.chan true } ∧
        t.range = s.range.set p.chan
          { s.range.get p.chan with frozen := true, windowCounter := 0, windowPeak := 0 } ∧
        RepliedLast t.report ⟨0x9C, tag, [0]⟩ ∧
        ((s.monitor.get p.chan).episode = none →
          t.monitor = s.monitor ∧ t.capture = s.capture ∧ t.fifo = s.fifo ∧
            Answered s.report t.report ⟨0x9C, tag, [0]⟩) ∧
        ∀ e, (s.monitor.get p.chan).episode = some e →
          t.monitor = s.monitor.set p.chan
            { s.monitor.get p.chan with phase := .idle, releaseCounter := 0, episode := none } ∧
          t.capture = { s.capture with regions := t.capture.regions } ∧
          TailsBegun s (fun c => c = p.chan) t.capture.regions ∧
          (TakesEvents s.report 2 → ∃ more, t.report.events = s.report.events ++
            ⟨some p.chan, s.clock.now, .episodeClosed
              ⟨e.number, p.chan, e.start, s.clock.now, e.duration, e.maxLevel, e.maxTime,
                level (s.store.active.chan.get p.chan).k e.q 48000, e.captureId, .check⟩⟩ :: more))) ∧
  (∀ (s : State) (tag : Byte) (body : List Byte) (rest : List Command), body.length = 14 →
    Begins s ⟨0x1C, tag, body⟩ rest → s.check.phase = .idle → s.port.stalled = false →
    let at' (i : Nat) : Nat := (body.getD i 0).toNat
    let word (i : Nat) : Nat := at' i + 256 * at' (i + 1)
    let amplitude : Nat := word 9 + 65536 * word 11
    (at' 0 = 0 ∨ 4 < at' 0 ∨ 1 < at' 1 ∨ 1 < at' 8 ∨ word 4 = 0 ∨ 500 < word 4 ∨ word 6 < 1000 ∨ 30000 < word 6 ∨
      (at' 1 = 0 ∧ 20000 < word 2) ∨
      (at' 1 = 1 ∧ (4 < at' 13 ∨ amplitude = 0 ∨ 8000000 < amplitude ∨ amplitude * 4 ^ (4 - at' 13) < 256))) →
    ∃ q, Answered s.report q ⟨0x9C, tag, [3]⟩ ∧
      exec (.startCheck tag body) s = .next { s.taken rest with report := q }) ∧
  ∀ (s : State) (tag : Byte) (rest : List Command), Begins s ⟨0x1D, tag, []⟩ rest →
    (s.check.phase = .idle →
      ∃ q, Answered s.report q ⟨0x9D, tag, [4]⟩ ∧
        exec (.abortCheck tag []) s = .next { s.taken rest with report := q }) ∧
    ∀ p, s.check.phase ≠ .idle → s.check.params = some p →
      let u := s.unit.get p.chan
      let r : CheckRecord :=
        { chan := p.chan, source := p.source, result := .aborted, measured := -32768, expected := -32768
          deviation := none, tolerance := p.tolerance, measureTime := p.measureTime
          blocksMeasured := if s.check.phase = .collecting then s.check.counter else 0
          adjustment := .notCompleted, stagedK := (s.store.staged.chan.get p.chan).k }
      ∃ t, exec (.abortCheck tag []) s = .next t ∧
        t = { s.taken rest with
          check := ⟨.idle, none, 0, 0, some r⟩
          range := s.range.set p.chan { s.range.get p.chan with frozen := false }
          unit := s.unit.set p.chan
            { u with main := .rest, peak := .rest, yF := 0, yS := 0, fCount := 0, sCount := 0 }
          report := t.report, fifo := t.fifo } ∧
        RepliedLast t.report ⟨0x9D, tag, [0]⟩ ∧
        (TakesEvents s.report 1 →
          t.report.events = s.report.events ++ [⟨some p.chan, s.clock.now, .checkDone r⟩])

/-- R17, R35, R69, R72, R80, R100, R110, R115, R123, R135, R146, R154, R158, R171, R180: SOFT_RESET empties the event queue
and the live slot, abandons the interval without a record, makes an opening pending if the clock is set, reverts the
staged copy, drops every threshold and closes every episode with RESET, makes every recording STORED with TRUNCATED,
restarts the rings and windows, clears the detectors and the alert line, ends a running check with RESET, and answers OK,
its reply chosen before the notices the reset offers. Those notices, as far as the masks pass them, are all the event queue
then holds. The clock, the range controllers' steps, the active configuration, the counts, the record FIFO, the settings of
chapters 6, 7 and 9 and the capture memory stay.
A buffer entry leaves when its region is a ring now (log entry 13), and the check's record carries the staged K from before
the staged copy reverts (log entry 21); the order of the closes is open (log entry 5). -/
def Obligations.SoftResetRestartsMeasurement : Prop :=
  ∀ (s : State) (tag : Byte) (rest : List Command), Begins s ⟨0x03, tag, []⟩ rest →
    let now := s.clock.now
    let q := s.report
    let ended (p : CheckParams) : CheckRecord := cutRecord s p .reset (s.store.staged.chan.get p.chan).k
    ∃ t, exec (.softReset tag []) s = .next t ∧
      t = { s.taken rest with
        clock := { s.clock with entryInForce := none }
        interval := none
        acc := { s.acc with
          phase := (if s.clock.isSet then .measuring else .untimed), holdPending := false, restartPending := false
          openingPending := s.clock.isSet }
        store := ⟨s.store.active, s.store.active, false⟩
        alert := { s.alert with high := false, flashCounter := 1 }
        capture := { s.capture with
          regions := t.capture.regions, rings := .same ⟨0, 0, none⟩, closeBlock := .same false
          buffer := s.capture.buffer.filter fun e => Chan.all.all fun c => s.capture.regions[e.region] ≠ .ring c }
        monitor := t.monitor, range := t.range, unit := t.unit, check := t.check, report := t.report
        choice := t.choice } ∧
      Answered { q with events := t.report.events, liveSlot := none, liveCounter := 0 } t.report ⟨0x83, tag, [0]⟩ ∧
      (∀ c, t.monitor.get c =
        { budget := none, warned := false, spent := false, lmax := none, releaseTime := 0, peak := none, peaksOver := 0
          episodesOpened := 0, releaseCounter := 0, episode := none, peakHoldOff := 0, peaksSuppressed := 0
          phase := if (s.monitor.get c).episode.isSome = true then .idle else (s.monitor.get c).phase }) ∧
      ((∀ p, ¬Running s p) → t.check = s.check) ∧
      (∀ p, Running s p → t.check = ⟨.idle, none, 0, 0, some (ended p)⟩) ∧
      (∀ c,
        ((∀ p, Running s p → p.chan ≠ c) →
          t.range.get c = { s.range.get c with windowCounter := 0, windowPeak := 0 } ∧
          t.unit.get c = { s.unit.get c with yF := 0, yS := 0, fCount := 0, sCount := 0 }) ∧
        ∀ p, Running s p → p.chan = c →
          t.range.get c = { s.range.get c with windowCounter := 0, windowPeak := 0, frozen := false } ∧
          t.unit.get c =
            { s.unit.get c with main := .rest, peak := .rest, yF := 0, yS := 0, fCount := 0, sCount := 0 }) ∧
      (∀ i : Fin 16, (∀ d, s.capture.regions[i] = .stored d → t.capture.regions[i] = .stored d) ∧
        (∀ c, s.capture.regions[i] = .ring c → t.capture.regions[i] = .ring c) ∧
        (s.capture.regions[i] = .free → t.capture.regions[i] = .free)) ∧
      (RolesHeld s →
        (∀ (i : Fin 16) (d : Descriptor) (tail : Option Nat), s.capture.regions[i] = .recording d tail →
          t.capture.regions[i] = .stored { d with truncated := true }) ∧
        ∃ (order : List Chan) (done : List Notice), order.Perm Chan.all ∧
          ((∀ p, ¬Running s p) → done = []) ∧
          (∀ p, Running s p → done = [⟨some p.chan, now, .checkDone (ended p)⟩]) ∧
          let closes (c : Chan) : List Notice :=
            closingNotices s c (s.k c) now .reset fun d => some { d with truncated := true }
          let tails (c : Chan) : List Notice := match s.capture.recording c with
            | none => []
            | some (i, d, tail) =>
              if tail = none ∧ (s.monitor.get c).episode.bind (·.captureId) = some d.id then []
              else [⟨some c, now, .captureStored i { d with truncated := true }⟩]
          t.report.events = (order.flatMap closes ++ Chan.all.flatMap tails ++ done).filter fun n =>
            q.kindMask.getLsbD (n.body.kindCode - 1) && Chan.all.all fun c =>
              n.chan ≠ some c || q.chanMask.getLsbD (c.number - 1))
end

