-- ==== Sys2Proof/Laws/State.lean ====
section
/-! SUPPORT. One lemma per field per named update of the state, and the four-channel containers. -/

namespace Sys2Proof

variable {α β : Type}

@[simp] theorem Quad.get_set_same (q : Quad α) (c : Chan) (x : α) : (q.set c x).get c = x := by cases c <;> rfl

@[simp] theorem Quad.get_set_other (q : Quad α) {c d : Chan} (x : α) (h : d ≠ c) : (q.set c x).get d = q.get d := by
  cases c <;> cases d <;> first | rfl | exact absurd rfl h

theorem Quad.get_set (q : Quad α) (c d : Chan) (x : α) : (q.set c x).get d = if d = c then x else q.get d := by
  cases c <;> cases d <;> rfl

@[simp] theorem Quad.get_mapWith (f : Chan → α → β) (q : Quad α) (c : Chan) : (q.mapWith f).get c = f c (q.get c) := by
  cases c <;> rfl

@[simp] theorem Quad.get_same (x : α) (c : Chan) : (Quad.same x).get c = x := by cases c <;> rfl

@[simp] theorem Quad.set_get (q : Quad α) (c : Chan) : q.set c (q.get c) = q := by cases c <;> rfl

theorem Quad.ext_get (p q : Quad α) (h : ∀ c, p.get c = q.get c) : p = q := by
  cases p; cases q
  have h1 := h .ch1; have h2 := h .ch2; have h3 := h .ch3; have h4 := h .ch4
  simp only [Quad.get] at h1 h2 h3 h4
  subst h1 h2 h3 h4; rfl

@[simp] theorem Chan.mem_all (c : Chan) : c ∈ Chan.all := by cases c <;> decide

end Sys2Proof

namespace Sys2Proof.Machine

variable (s : State)

@[simp] theorem State.setRange_port (c : Chan) (r : RangeCtl) : (s.setRange c r).port = s.port := rfl
@[simp] theorem State.setRange_range (c : Chan) (r : RangeCtl) : (s.setRange c r).range = s.range.set c r := rfl
@[simp] theorem State.setRange_unit (c : Chan) (r : RangeCtl) : (s.setRange c r).unit = s.unit := rfl
@[simp] theorem State.setRange_clock (c : Chan) (r : RangeCtl) : (s.setRange c r).clock = s.clock := rfl
@[simp] theorem State.setRange_store (c : Chan) (r : RangeCtl) : (s.setRange c r).store = s.store := rfl
@[simp] theorem State.setRange_acc (c : Chan) (r : RangeCtl) : (s.setRange c r).acc = s.acc := rfl
@[simp] theorem State.setRange_interval (c : Chan) (r : RangeCtl) : (s.setRange c r).interval = s.interval := rfl
@[simp] theorem State.setRange_fifo (c : Chan) (r : RangeCtl) : (s.setRange c r).fifo = s.fifo := rfl
@[simp] theorem State.setRange_recordsLost (c : Chan) (r : RangeCtl) : (s.setRange c r).recordsLost = s.recordsLost := rfl
@[simp] theorem State.setRange_monitor (c : Chan) (r : RangeCtl) : (s.setRange c r).monitor = s.monitor := rfl
@[simp] theorem State.setRange_nextEpisode (c : Chan) (r : RangeCtl) : (s.setRange c r).nextEpisode = s.nextEpisode := rfl
@[simp] theorem State.setRange_alert (c : Chan) (r : RangeCtl) : (s.setRange c r).alert = s.alert := rfl
@[simp] theorem State.setRange_capture (c : Chan) (r : RangeCtl) : (s.setRange c r).capture = s.capture := rfl
@[simp] theorem State.setRange_memory (c : Chan) (r : RangeCtl) : (s.setRange c r).memory = s.memory := rfl
@[simp] theorem State.setRange_check (c : Chan) (r : RangeCtl) : (s.setRange c r).check = s.check := rfl
@[simp] theorem State.setRange_report (c : Chan) (r : RangeCtl) : (s.setRange c r).report = s.report := rfl
@[simp] theorem State.setRange_link (c : Chan) (r : RangeCtl) : (s.setRange c r).link = s.link := rfl
@[simp] theorem State.setRange_handed (c : Chan) (r : RangeCtl) : (s.setRange c r).handed = s.handed := rfl
@[simp] theorem State.setRange_image (c : Chan) (r : RangeCtl) : (s.setRange c r).image = s.image := rfl
@[simp] theorem State.setRange_blockWork (c : Chan) (r : RangeCtl) : (s.setRange c r).blockWork = s.blockWork := rfl
@[simp] theorem State.setRange_choice (c : Chan) (r : RangeCtl) : (s.setRange c r).choice = s.choice := rfl
@[simp] theorem State.setRange_pending (c : Chan) (r : RangeCtl) : (s.setRange c r).pending = s.pending := rfl

@[simp] theorem State.setUnit_port (c : Chan) (u : WeightUnit) : (s.setUnit c u).port = s.port := rfl
@[simp] theorem State.setUnit_range (c : Chan) (u : WeightUnit) : (s.setUnit c u).range = s.range := rfl
@[simp] theorem State.setUnit_unit (c : Chan) (u : WeightUnit) : (s.setUnit c u).unit = s.unit.set c u := rfl
@[simp] theorem State.setUnit_clock (c : Chan) (u : WeightUnit) : (s.setUnit c u).clock = s.clock := rfl
@[simp] theorem State.setUnit_store (c : Chan) (u : WeightUnit) : (s.setUnit c u).store = s.store := rfl
@[simp] theorem State.setUnit_acc (c : Chan) (u : WeightUnit) : (s.setUnit c u).acc = s.acc := rfl
@[simp] theorem State.setUnit_interval (c : Chan) (u : WeightUnit) : (s.setUnit c u).interval = s.interval := rfl
@[simp] theorem State.setUnit_fifo (c : Chan) (u : WeightUnit) : (s.setUnit c u).fifo = s.fifo := rfl
@[simp] theorem State.setUnit_recordsLost (c : Chan) (u : WeightUnit) : (s.setUnit c u).recordsLost = s.recordsLost := rfl
@[simp] theorem State.setUnit_monitor (c : Chan) (u : WeightUnit) : (s.setUnit c u).monitor = s.monitor := rfl
@[simp] theorem State.setUnit_nextEpisode (c : Chan) (u : WeightUnit) : (s.setUnit c u).nextEpisode = s.nextEpisode := rfl
@[simp] theorem State.setUnit_alert (c : Chan) (u : WeightUnit) : (s.setUnit c u).alert = s.alert := rfl
@[simp] theorem State.setUnit_capture (c : Chan) (u : WeightUnit) : (s.setUnit c u).capture = s.capture := rfl
@[simp] theorem State.setUnit_memory (c : Chan) (u : WeightUnit) : (s.setUnit c u).memory = s.memory := rfl
@[simp] theorem State.setUnit_check (c : Chan) (u : WeightUnit) : (s.setUnit c u).check = s.check := rfl
@[simp] theorem State.setUnit_report (c : Chan) (u : WeightUnit) : (s.setUnit c u).report = s.report := rfl
@[simp] theorem State.setUnit_link (c : Chan) (u : WeightUnit) : (s.setUnit c u).link = s.link := rfl
@[simp] theorem State.setUnit_handed (c : Chan) (u : WeightUnit) : (s.setUnit c u).handed = s.handed := rfl
@[simp] theorem State.setUnit_image (c : Chan) (u : WeightUnit) : (s.setUnit c u).image = s.image := rfl
@[simp] theorem State.setUnit_blockWork (c : Chan) (u : WeightUnit) : (s.setUnit c u).blockWork = s.blockWork := rfl
@[simp] theorem State.setUnit_choice (c : Chan) (u : WeightUnit) : (s.setUnit c u).choice = s.choice := rfl
@[simp] theorem State.setUnit_pending (c : Chan) (u : WeightUnit) : (s.setUnit c u).pending = s.pending := rfl

@[simp] theorem State.setMonitor_port (c : Chan) (m : MonitorChan) : (s.setMonitor c m).port = s.port := rfl
@[simp] theorem State.setMonitor_range (c : Chan) (m : MonitorChan) : (s.setMonitor c m).range = s.range := rfl
@[simp] theorem State.setMonitor_unit (c : Chan) (m : MonitorChan) : (s.setMonitor c m).unit = s.unit := rfl
@[simp] theorem State.setMonitor_clock (c : Chan) (m : MonitorChan) : (s.setMonitor c m).clock = s.clock := rfl
@[simp] theorem State.setMonitor_store (c : Chan) (m : MonitorChan) : (s.setMonitor c m).store = s.store := rfl
@[simp] theorem State.setMonitor_acc (c : Chan) (m : MonitorChan) : (s.setMonitor c m).acc = s.acc := rfl
@[simp] theorem State.setMonitor_interval (c : Chan) (m : MonitorChan) : (s.setMonitor c m).interval = s.interval := rfl
@[simp] theorem State.setMonitor_fifo (c : Chan) (m : MonitorChan) : (s.setMonitor c m).fifo = s.fifo := rfl
@[simp] theorem State.setMonitor_recordsLost (c : Chan) (m : MonitorChan) : (s.setMonitor c m).recordsLost = s.recordsLost := rfl
@[simp] theorem State.setMonitor_monitor (c : Chan) (m : MonitorChan) : (s.setMonitor c m).monitor = s.monitor.set c m := rfl
@[simp] theorem State.setMonitor_nextEpisode (c : Chan) (m : MonitorChan) : (s.setMonitor c m).nextEpisode = s.nextEpisode := rfl
@[simp] theorem State.setMonitor_alert (c : Chan) (m : MonitorChan) : (s.setMonitor c m).alert = s.alert := rfl
@[simp] theorem State.setMonitor_capture (c : Chan) (m : MonitorChan) : (s.setMonitor c m).capture = s.capture := rfl
@[simp] theorem State.setMonitor_memory (c : Chan) (m : MonitorChan) : (s.setMonitor c m).memory = s.memory := rfl
@[simp] theorem State.setMonitor_check (c : Chan) (m : MonitorChan) : (s.setMonitor c m).check = s.check := rfl
@[simp] theorem State.setMonitor_report (c : Chan) (m : MonitorChan) : (s.setMonitor c m).report = s.report := rfl
@[simp] theorem State.setMonitor_link (c : Chan) (m : MonitorChan) : (s.setMonitor c m).link = s.link := rfl
@[simp] theorem State.setMonitor_handed (c : Chan) (m : MonitorChan) : (s.setMonitor c m).handed = s.handed := rfl
@[simp] theorem State.setMonitor_image (c : Chan) (m : MonitorChan) : (s.setMonitor c m).image = s.image := rfl
@[simp] theorem State.setMonitor_blockWork (c : Chan) (m : MonitorChan) : (s.setMonitor c m).blockWork = s.blockWork := rfl
@[simp] theorem State.setMonitor_choice (c : Chan) (m : MonitorChan) : (s.setMonitor c m).choice = s.choice := rfl
@[simp] theorem State.setMonitor_pending (c : Chan) (m : MonitorChan) : (s.setMonitor c m).pending = s.pending := rfl

@[simp] theorem State.setRing_port (c : Chan) (r : Ring) : (s.setRing c r).port = s.port := rfl
@[simp] theorem State.setRing_range (c : Chan) (r : Ring) : (s.setRing c r).range = s.range := rfl
@[simp] theorem State.setRing_unit (c : Chan) (r : Ring) : (s.setRing c r).unit = s.unit := rfl
@[simp] theorem State.setRing_clock (c : Chan) (r : Ring) : (s.setRing c r).clock = s.clock := rfl
@[simp] theorem State.setRing_store (c : Chan) (r : Ring) : (s.setRing c r).store = s.store := rfl
@[simp] theorem State.setRing_acc (c : Chan) (r : Ring) : (s.setRing c r).acc = s.acc := rfl
@[simp] theorem State.setRing_interval (c : Chan) (r : Ring) : (s.setRing c r).interval = s.interval := rfl
@[simp] theorem State.setRing_fifo (c : Chan) (r : Ring) : (s.setRing c r).fifo = s.fifo := rfl
@[simp] theorem State.setRing_recordsLost (c : Chan) (r : Ring) : (s.setRing c r).recordsLost = s.recordsLost := rfl
@[simp] theorem State.setRing_monitor (c : Chan) (r : Ring) : (s.setRing c r).monitor = s.monitor := rfl
@[simp] theorem State.setRing_nextEpisode (c : Chan) (r : Ring) : (s.setRing c r).nextEpisode = s.nextEpisode := rfl
@[simp] theorem State.setRing_alert (c : Chan) (r : Ring) : (s.setRing c r).alert = s.alert := rfl
@[simp] theorem State.setRing_capture (c : Chan) (r : Ring) : (s.setRing c r).capture = { s.capture with rings := s.capture.rings.set c r } := rfl
@[simp] theorem State.setRing_memory (c : Chan) (r : Ring) : (s.setRing c r).memory = s.memory := rfl
@[simp] theorem State.setRing_check (c : Chan) (r : Ring) : (s.setRing c r).check = s.check := rfl
@[simp] theorem State.setRing_report (c : Chan) (r : Ring) : (s.setRing c r).report = s.report := rfl
@[simp] theorem State.setRing_link (c : Chan) (r : Ring) : (s.setRing c r).link = s.link := rfl
@[simp] theorem State.setRing_handed (c : Chan) (r : Ring) : (s.setRing c r).handed = s.handed := rfl
@[simp] theorem State.setRing_image (c : Chan) (r : Ring) : (s.setRing c r).image = s.image := rfl
@[simp] theorem State.setRing_blockWork (c : Chan) (r : Ring) : (s.setRing c r).blockWork = s.blockWork := rfl
@[simp] theorem State.setRing_choice (c : Chan) (r : Ring) : (s.setRing c r).choice = s.choice := rfl
@[simp] theorem State.setRing_pending (c : Chan) (r : Ring) : (s.setRing c r).pending = s.pending := rfl

@[simp] theorem State.setRole_port (i : Fin 16) (r : Role) : (s.setRole i r).port = s.port := rfl
@[simp] theorem State.setRole_range (i : Fin 16) (r : Role) : (s.setRole i r).range = s.range := rfl
@[simp] theorem State.setRole_unit (i : Fin 16) (r : Role) : (s.setRole i r).unit = s.unit := rfl
@[simp] theorem State.setRole_clock (i : Fin 16) (r : Role) : (s.setRole i r).clock = s.clock := rfl
@[simp] theorem State.setRole_store (i : Fin 16) (r : Role) : (s.setRole i r).store = s.store := rfl
@[simp] theorem State.setRole_acc (i : Fin 16) (r : Role) : (s.setRole i r).acc = s.acc := rfl
@[simp] theorem State.setRole_interval (i : Fin 16) (r : Role) : (s.setRole i r).interval = s.interval := rfl
@[simp] theorem State.setRole_fifo (i : Fin 16) (r : Role) : (s.setRole i r).fifo = s.fifo := rfl
@[simp] theorem State.setRole_recordsLost (i : Fin 16) (r : Role) : (s.setRole i r).recordsLost = s.recordsLost := rfl
@[simp] theorem State.setRole_monitor (i : Fin 16) (r : Role) : (s.setRole i r).monitor = s.monitor := rfl
@[simp] theorem State.setRole_nextEpisode (i : Fin 16) (r : Role) : (s.setRole i r).nextEpisode = s.nextEpisode := rfl
@[simp] theorem State.setRole_alert (i : Fin 16) (r : Role) : (s.setRole i r).alert = s.alert := rfl
@[simp] theorem State.setRole_capture (i : Fin 16) (r : Role) : (s.setRole i r).capture = { s.capture with regions := s.capture.regions.set i r } := rfl
@[simp] theorem State.setRole_memory (i : Fin 16) (r : Role) : (s.setRole i r).memory = s.memory := rfl
@[simp] theorem State.setRole_check (i : Fin 16) (r : Role) : (s.setRole i r).check = s.check := rfl
@[simp] theorem State.setRole_report (i : Fin 16) (r : Role) : (s.setRole i r).report = s.report := rfl
@[simp] theorem State.setRole_link (i : Fin 16) (r : Role) : (s.setRole i r).link = s.link := rfl
@[simp] theorem State.setRole_handed (i : Fin 16) (r : Role) : (s.setRole i r).handed = s.handed := rfl
@[simp] theorem State.setRole_image (i : Fin 16) (r : Role) : (s.setRole i r).image = s.image := rfl
@[simp] theorem State.setRole_blockWork (i : Fin 16) (r : Role) : (s.setRole i r).blockWork = s.blockWork := rfl
@[simp] theorem State.setRole_choice (i : Fin 16) (r : Role) : (s.setRole i r).choice = s.choice := rfl
@[simp] theorem State.setRole_pending (i : Fin 16) (r : Role) : (s.setRole i r).pending = s.pending := rfl

@[simp] theorem State.setResults_port (c : Chan) (r : BlockResults) : (s.setResults c r).port = s.port := rfl
@[simp] theorem State.setResults_range (c : Chan) (r : BlockResults) : (s.setResults c r).range = s.range := rfl
@[simp] theorem State.setResults_unit (c : Chan) (r : BlockResults) : (s.setResults c r).unit = s.unit := rfl
@[simp] theorem State.setResults_clock (c : Chan) (r : BlockResults) : (s.setResults c r).clock = s.clock := rfl
@[simp] theorem State.setResults_store (c : Chan) (r : BlockResults) : (s.setResults c r).store = s.store := rfl
@[simp] theorem State.setResults_acc (c : Chan) (r : BlockResults) : (s.setResults c r).acc = s.acc := rfl
@[simp] theorem State.setResults_interval (c : Chan) (r : BlockResults) : (s.setResults c r).interval = s.interval := rfl
@[simp] theorem State.setResults_fifo (c : Chan) (r : BlockResults) : (s.setResults c r).fifo = s.fifo := rfl
@[simp] theorem State.setResults_recordsLost (c : Chan) (r : BlockResults) : (s.setResults c r).recordsLost = s.recordsLost := rfl
@[simp] theorem State.setResults_monitor (c : Chan) (r : BlockResults) : (s.setResults c r).monitor = s.monitor := rfl
@[simp] theorem State.setResults_nextEpisode (c : Chan) (r : BlockResults) : (s.setResults c r).nextEpisode = s.nextEpisode := rfl
@[simp] theorem State.setResults_alert (c : Chan) (r : BlockResults) : (s.setResults c r).alert = s.alert := rfl
@[simp] theorem State.setResults_capture (c : Chan) (r : BlockResults) : (s.setResults c r).capture = s.capture := rfl
@[simp] theorem State.setResults_memory (c : Chan) (r : BlockResults) : (s.setResults c r).memory = s.memory := rfl
@[simp] theorem State.setResults_check (c : Chan) (r : BlockResults) : (s.setResults c r).check = s.check := rfl
@[simp] theorem State.setResults_report (c : Chan) (r : BlockResults) : (s.setResults c r).report = s.report := rfl
@[simp] theorem State.setResults_link (c : Chan) (r : BlockResults) : (s.setResults c r).link = s.link := rfl
@[simp] theorem State.setResults_handed (c : Chan) (r : BlockResults) : (s.setResults c r).handed = { s.handed with results := s.handed.results.set c r } := rfl
@[simp] theorem State.setResults_image (c : Chan) (r : BlockResults) : (s.setResults c r).image = s.image := rfl
@[simp] theorem State.setResults_blockWork (c : Chan) (r : BlockResults) : (s.setResults c r).blockWork = s.blockWork := rfl
@[simp] theorem State.setResults_choice (c : Chan) (r : BlockResults) : (s.setResults c r).choice = s.choice := rfl
@[simp] theorem State.setResults_pending (c : Chan) (r : BlockResults) : (s.setResults c r).pending = s.pending := rfl

/-- Two states that agree in every field are equal. -/
theorem State.ext_fields (s t : State)
    (h0 : s.port = t.port)
    (h1 : s.range = t.range)
    (h2 : s.unit = t.unit)
    (h3 : s.clock = t.clock)
    (h4 : s.store = t.store)
    (h5 : s.acc = t.acc)
    (h6 : s.interval = t.interval)
    (h7 : s.fifo = t.fifo)
    (h8 : s.recordsLost = t.recordsLost)
    (h9 : s.monitor = t.monitor)
    (h10 : s.nextEpisode = t.nextEpisode)
    (h11 : s.alert = t.alert)
    (h12 : s.capture = t.capture)
    (h13 : s.memory = t.memory)
    (h14 : s.check = t.check)
    (h15 : s.report = t.report)
    (h16 : s.link = t.link)
    (h17 : s.handed = t.handed)
    (h18 : s.image = t.image)
    (h19 : s.blockWork = t.blockWork)
    (h20 : s.choice = t.choice)
    (h21 : s.pending = t.pending) : s = t := by
  cases s; cases t
  simp only [] at h0 h1 h2 h3 h4 h5 h6 h7 h8 h9 h10 h11 h12 h13 h14 h15 h16 h17 h18 h19 h20 h21
  subst h0 h1 h2 h3 h4 h5 h6 h7 h8 h9 h10 h11 h12 h13 h14 h15 h16 h17 h18 h19 h20 h21
  rfl

@[simp] theorem State.setResults_results (c d : Chan) (r : BlockResults) :
    (s.setResults c r).results d = if d = c then r else s.results d := s.handed.results.get_set c d r

@[simp] theorem State.active_eq : s.active = s.store.active := rfl

end Sys2Proof.Machine
end

