-- ==== Sys2Proof/Laws/Report.lean ====
section
/-! SUPPORT. The report queue's operations: what each changes, and what becomes of a reply, an event and a record. -/

namespace Sys2Proof.Machine

/-! ### What each operation leaves unchanged -/

/-- The transmit selection changes the report queue and the record FIFO alone. -/
theorem transmit_frame (s : State) :
    s.transmit = { s with report := s.transmit.report, fifo := s.transmit.fifo } := by
  unfold State.transmit; repeat' split
  all_goals rfl

/-- An event changes the report queue and, through the transmit selection, the record FIFO alone. -/
theorem offer_frame (s : State) (c : Option Chan) (t : Stamp) (b : EventBody) :
    s.offer c t b = { s with report := (s.offer c t b).report, fifo := (s.offer c t b).fifo } := by
  unfold State.offer; split
  · exact transmit_frame _
  · rfl

/-- A record changes the report queue, the record FIFO and records-lost alone. -/
theorem putRecord_frame (s : State) (t : Stamp) (r : IntervalRecord) :
    s.putRecord t r =
      { s with report := (s.putRecord t r).report, fifo := (s.putRecord t r).fifo
               recordsLost := (s.putRecord t r).recordsLost } := by
  unfold State.putRecord
  dsimp only
  split
  · split
    · rw [transmit_frame, offer_frame]
    · rw [transmit_frame]
  · rw [transmit_frame]

@[simp] theorem transmit_port (s : State) : (s.transmit).port = s.port := by
  have h := congrArg State.port (transmit_frame s); exact h
@[simp] theorem transmit_range (s : State) : (s.transmit).range = s.range := by
  have h := congrArg State.range (transmit_frame s); exact h
@[simp] theorem transmit_unit (s : State) : (s.transmit).unit = s.unit := by
  have h := congrArg State.unit (transmit_frame s); exact h
@[simp] theorem transmit_clock (s : State) : (s.transmit).clock = s.clock := by
  have h := congrArg State.clock (transmit_frame s); exact h
@[simp] theorem transmit_store (s : State) : (s.transmit).store = s.store := by
  have h := congrArg State.store (transmit_frame s); exact h
@[simp] theorem transmit_acc (s : State) : (s.transmit).acc = s.acc := by
  have h := congrArg State.acc (transmit_frame s); exact h
@[simp] theorem transmit_interval (s : State) : (s.transmit).interval = s.interval := by
  have h := congrArg State.interval (transmit_frame s); exact h
@[simp] theorem transmit_recordsLost (s : State) : (s.transmit).recordsLost = s.recordsLost := by
  have h := congrArg State.recordsLost (transmit_frame s); exact h
@[simp] theorem transmit_monitor (s : State) : (s.transmit).monitor = s.monitor := by
  have h := congrArg State.monitor (transmit_frame s); exact h
@[simp] theorem transmit_nextEpisode (s : State) : (s.transmit).nextEpisode = s.nextEpisode := by
  have h := congrArg State.nextEpisode (transmit_frame s); exact h
@[simp] theorem transmit_alert (s : State) : (s.transmit).alert = s.alert := by
  have h := congrArg State.alert (transmit_frame s); exact h
@[simp] theorem transmit_capture (s : State) : (s.transmit).capture = s.capture := by
  have h := congrArg State.capture (transmit_frame s); exact h
@[simp] theorem transmit_memory (s : State) : (s.transmit).memory = s.memory := by
  have h := congrArg State.memory (transmit_frame s); exact h
@[simp] theorem transmit_check (s : State) : (s.transmit).check = s.check := by
  have h := congrArg State.check (transmit_frame s); exact h
@[simp] theorem transmit_link (s : State) : (s.transmit).link = s.link := by
  have h := congrArg State.link (transmit_frame s); exact h
@[simp] theorem transmit_handed (s : State) : (s.transmit).handed = s.handed := by
  have h := congrArg State.handed (transmit_frame s); exact h
@[simp] theorem transmit_image (s : State) : (s.transmit).image = s.image := by
  have h := congrArg State.image (transmit_frame s); exact h
@[simp] theorem transmit_blockWork (s : State) : (s.transmit).blockWork = s.blockWork := by
  have h := congrArg State.blockWork (transmit_frame s); exact h
@[simp] theorem transmit_choice (s : State) : (s.transmit).choice = s.choice := by
  have h := congrArg State.choice (transmit_frame s); exact h
@[simp] theorem transmit_pending (s : State) : (s.transmit).pending = s.pending := by
  have h := congrArg State.pending (transmit_frame s); exact h

@[simp] theorem offer_port (s : State) (c : Option Chan) (t : Stamp) (b : EventBody) : (s.offer c t b).port = s.port := by
  have h := congrArg State.port (offer_frame s c t b); exact h
@[simp] theorem offer_range (s : State) (c : Option Chan) (t : Stamp) (b : EventBody) : (s.offer c t b).range = s.range := by
  have h := congrArg State.range (offer_frame s c t b); exact h
@[simp] theorem offer_unit (s : State) (c : Option Chan) (t : Stamp) (b : EventBody) : (s.offer c t b).unit = s.unit := by
  have h := congrArg State.unit (offer_frame s c t b); exact h
@[simp] theorem offer_clock (s : State) (c : Option Chan) (t : Stamp) (b : EventBody) : (s.offer c t b).clock = s.clock := by
  have h := congrArg State.clock (offer_frame s c t b); exact h
@[simp] theorem offer_store (s : State) (c : Option Chan) (t : Stamp) (b : EventBody) : (s.offer c t b).store = s.store := by
  have h := congrArg State.store (offer_frame s c t b); exact h
@[simp] theorem offer_acc (s : State) (c : Option Chan) (t : Stamp) (b : EventBody) : (s.offer c t b).acc = s.acc := by
  have h := congrArg State.acc (offer_frame s c t b); exact h
@[simp] theorem offer_interval (s : State) (c : Option Chan) (t : Stamp) (b : EventBody) : (s.offer c t b).interval = s.interval := by
  have h := congrArg State.interval (offer_frame s c t b); exact h
@[simp] theorem offer_recordsLost (s : State) (c : Option Chan) (t : Stamp) (b : EventBody) : (s.offer c t b).recordsLost = s.recordsLost := by
  have h := congrArg State.recordsLost (offer_frame s c t b); exact h
@[simp] theorem offer_monitor (s : State) (c : Option Chan) (t : Stamp) (b : EventBody) : (s.offer c t b).monitor = s.monitor := by
  have h := congrArg State.monitor (offer_frame s c t b); exact h
@[simp] theorem offer_nextEpisode (s : State) (c : Option Chan) (t : Stamp) (b : EventBody) : (s.offer c t b).nextEpisode = s.nextEpisode := by
  have h := congrArg State.nextEpisode (offer_frame s c t b); exact h
@[simp] theorem offer_alert (s : State) (c : Option Chan) (t : Stamp) (b : EventBody) : (s.offer c t b).alert = s.alert := by
  have h := congrArg State.alert (offer_frame s c t b); exact h
@[simp] theorem offer_capture (s : State) (c : Option Chan) (t : Stamp) (b : EventBody) : (s.offer c t b).capture = s.capture := by
  have h := congrArg State.capture (offer_frame s c t b); exact h
@[simp] theorem offer_memory (s : State) (c : Option Chan) (t : Stamp) (b : EventBody) : (s.offer c t b).memory = s.memory := by
  have h := congrArg State.memory (offer_frame s c t b); exact h
@[simp] theorem offer_check (s : State) (c : Option Chan) (t : Stamp) (b : EventBody) : (s.offer c t b).check = s.check := by
  have h := congrArg State.check (offer_frame s c t b); exact h
@[simp] theorem offer_link (s : State) (c : Option Chan) (t : Stamp) (b : EventBody) : (s.offer c t b).link = s.link := by
  have h := congrArg State.link (offer_frame s c t b); exact h
@[simp] theorem offer_handed (s : State) (c : Option Chan) (t : Stamp) (b : EventBody) : (s.offer c t b).handed = s.handed := by
  have h := congrArg State.handed (offer_frame s c t b); exact h
@[simp] theorem offer_image (s : State) (c : Option Chan) (t : Stamp) (b : EventBody) : (s.offer c t b).image = s.image := by
  have h := congrArg State.image (offer_frame s c t b); exact h
@[simp] theorem offer_blockWork (s : State) (c : Option Chan) (t : Stamp) (b : EventBody) : (s.offer c t b).blockWork = s.blockWork := by
  have h := congrArg State.blockWork (offer_frame s c t b); exact h
@[simp] theorem offer_choice (s : State) (c : Option Chan) (t : Stamp) (b : EventBody) : (s.offer c t b).choice = s.choice := by
  have h := congrArg State.choice (offer_frame s c t b); exact h
@[simp] theorem offer_pending (s : State) (c : Option Chan) (t : Stamp) (b : EventBody) : (s.offer c t b).pending = s.pending := by
  have h := congrArg State.pending (offer_frame s c t b); exact h

@[simp] theorem putRecord_port (s : State) (t : Stamp) (r : IntervalRecord) : (s.putRecord t r).port = s.port := by
  have h := congrArg State.port (putRecord_frame s t r); exact h
@[simp] theorem putRecord_range (s : State) (t : Stamp) (r : IntervalRecord) : (s.putRecord t r).range = s.range := by
  have h := congrArg State.range (putRecord_frame s t r); exact h
@[simp] theorem putRecord_unit (s : State) (t : Stamp) (r : IntervalRecord) : (s.putRecord t r).unit = s.unit := by
  have h := congrArg State.unit (putRecord_frame s t r); exact h
@[simp] theorem putRecord_clock (s : State) (t : Stamp) (r : IntervalRecord) : (s.putRecord t r).clock = s.clock := by
  have h := congrArg State.clock (putRecord_frame s t r); exact h
@[simp] theorem putRecord_store (s : State) (t : Stamp) (r : IntervalRecord) : (s.putRecord t r).store = s.store := by
  have h := congrArg State.store (putRecord_frame s t r); exact h
@[simp] theorem putRecord_acc (s : State) (t : Stamp) (r : IntervalRecord) : (s.putRecord t r).acc = s.acc := by
  have h := congrArg State.acc (putRecord_frame s t r); exact h
@[simp] theorem putRecord_interval (s : State) (t : Stamp) (r : IntervalRecord) : (s.putRecord t r).interval = s.interval := by
  have h := congrArg State.interval (putRecord_frame s t r); exact h
@[simp] theorem putRecord_monitor (s : State) (t : Stamp) (r : IntervalRecord) : (s.putRecord t r).monitor = s.monitor := by
  have h := congrArg State.monitor (putRecord_frame s t r); exact h
@[simp] theorem putRecord_nextEpisode (s : State) (t : Stamp) (r : IntervalRecord) : (s.putRecord t r).nextEpisode = s.nextEpisode := by
  have h := congrArg State.nextEpisode (putRecord_frame s t r); exact h
@[simp] theorem putRecord_alert (s : State) (t : Stamp) (r : IntervalRecord) : (s.putRecord t r).alert = s.alert := by
  have h := congrArg State.alert (putRecord_frame s t r); exact h
@[simp] theorem putRecord_capture (s : State) (t : Stamp) (r : IntervalRecord) : (s.putRecord t r).capture = s.capture := by
  have h := congrArg State.capture (putRecord_frame s t r); exact h
@[simp] theorem putRecord_memory (s : State) (t : Stamp) (r : IntervalRecord) : (s.putRecord t r).memory = s.memory := by
  have h := congrArg State.memory (putRecord_frame s t r); exact h
@[simp] theorem putRecord_check (s : State) (t : Stamp) (r : IntervalRecord) : (s.putRecord t r).check = s.check := by
  have h := congrArg State.check (putRecord_frame s t r); exact h
@[simp] theorem putRecord_link (s : State) (t : Stamp) (r : IntervalRecord) : (s.putRecord t r).link = s.link := by
  have h := congrArg State.link (putRecord_frame s t r); exact h
@[simp] theorem putRecord_handed (s : State) (t : Stamp) (r : IntervalRecord) : (s.putRecord t r).handed = s.handed := by
  have h := congrArg State.handed (putRecord_frame s t r); exact h
@[simp] theorem putRecord_image (s : State) (t : Stamp) (r : IntervalRecord) : (s.putRecord t r).image = s.image := by
  have h := congrArg State.image (putRecord_frame s t r); exact h
@[simp] theorem putRecord_blockWork (s : State) (t : Stamp) (r : IntervalRecord) : (s.putRecord t r).blockWork = s.blockWork := by
  have h := congrArg State.blockWork (putRecord_frame s t r); exact h
@[simp] theorem putRecord_choice (s : State) (t : Stamp) (r : IntervalRecord) : (s.putRecord t r).choice = s.choice := by
  have h := congrArg State.choice (putRecord_frame s t r); exact h
@[simp] theorem putRecord_pending (s : State) (t : Stamp) (r : IntervalRecord) : (s.putRecord t r).pending = s.pending := by
  have h := congrArg State.pending (putRecord_frame s t r); exact h

@[simp] theorem transmit_results (s : State) : s.transmit.results = s.results := by
  funext c; simp [State.results]

@[simp] theorem offer_results (s : State) (c : Option Chan) (t : Stamp) (b : EventBody) :
    (s.offer c t b).results = s.results := by
  funext d; simp [State.results]

/-! ### Replies -/

/-- A queue with a reply in it and an idle transmitter: the oldest reply begins transmission. -/
theorem transmit_reply (s : State) (m : Message) (rest : List Message) (hs : s.report.sending = none)
    (hr : s.report.replies = m :: rest) :
    s.transmit = { s with report := { s.report with replies := rest, sending := some m } } := by
  unfold State.transmit; rw [hs, hr]

/-- A transmitter that is sending chooses nothing. -/
theorem transmit_sending (s : State) (m : Message) (hs : s.report.sending = some m) : s.transmit = s := by
  unfold State.transmit; rw [hs]

/-- What a formed reply does: it joins the reply queue behind a message in transmission, and of an idle transmitter the
oldest reply begins transmission. -/
theorem reply_eq (s : State) (kind tag : Byte) (body : List Byte) :
    s.reply kind tag body =
      match s.report.sending, s.report.replies with
      | some _, rs => { s with report := { s.report with replies := rs ++ [⟨kind, tag, body⟩] } }
      | none, [] => { s with report := { s.report with sending := some ⟨kind, tag, body⟩ } }
      | none, r :: rs =>
        { s with report := { s.report with sending := some r, replies := rs ++ [⟨kind, tag, body⟩] } } := by
  unfold State.reply
  cases hs : s.report.sending with
  | some m => rw [transmit_sending _ m (by exact hs)]
  | none =>
    cases hr : s.report.replies with
    | nil =>
      rw [transmit_reply _ ⟨kind, tag, body⟩ [] (by exact hs) (by simp)]
      simp [hr]
    | cons r rs => rw [transmit_reply _ r (rs ++ [⟨kind, tag, body⟩]) (by exact hs) (by simp)]

/-- A reply changes the report queue alone. -/
theorem reply_frame (s : State) (kind tag : Byte) (body : List Byte) :
    s.reply kind tag body = { s with report := (s.reply kind tag body).report } := by
  rw [reply_eq]; split <;> rfl

@[simp] theorem reply_port (s : State) (kind tag : Byte) (body : List Byte) :
    (s.reply kind tag body).port = s.port := by
  have h := congrArg State.port (reply_frame s kind tag body); exact h
@[simp] theorem reply_range (s : State) (kind tag : Byte) (body : List Byte) :
    (s.reply kind tag body).range = s.range := by
  have h := congrArg State.range (reply_frame s kind tag body); exact h
@[simp] theorem reply_unit (s : State) (kind tag : Byte) (body : List Byte) :
    (s.reply kind tag body).unit = s.unit := by
  have h := congrArg State.unit (reply_frame s kind tag body); exact h
@[simp] theorem reply_clock (s : State) (kind tag : Byte) (body : List Byte) :
    (s.reply kind tag body).clock = s.clock := by
  have h := congrArg State.clock (reply_frame s kind tag body); exact h
@[simp] theorem reply_store (s : State) (kind tag : Byte) (body : List Byte) :
    (s.reply kind tag body).store = s.store := by
  have h := congrArg State.store (reply_frame s kind tag body); exact h
@[simp] theorem reply_acc (s : State) (kind tag : Byte) (body : List Byte) :
    (s.reply kind tag body).acc = s.acc := by
  have h := congrArg State.acc (reply_frame s kind tag body); exact h
@[simp] theorem reply_interval (s : State) (kind tag : Byte) (body : List Byte) :
    (s.reply kind tag body).interval = s.interval := by
  have h := congrArg State.interval (reply_frame s kind tag body); exact h
@[simp] theorem reply_fifo (s : State) (kind tag : Byte) (body : List Byte) :
    (s.reply kind tag body).fifo = s.fifo := by
  have h := congrArg State.fifo (reply_frame s kind tag body); exact h
@[simp] theorem reply_recordsLost (s : State) (kind tag : Byte) (body : List Byte) :
    (s.reply kind tag body).recordsLost = s.recordsLost := by
  have h := congrArg State.recordsLost (reply_frame s kind tag body); exact h
@[simp] theorem reply_monitor (s : State) (kind tag : Byte) (body : List Byte) :
    (s.reply kind tag body).monitor = s.monitor := by
  have h := congrArg State.monitor (reply_frame s kind tag body); exact h
@[simp] theorem reply_nextEpisode (s : State) (kind tag : Byte) (body : List Byte) :
    (s.reply kind tag body).nextEpisode = s.nextEpisode := by
  have h := congrArg State.nextEpisode (reply_frame s kind tag body); exact h
@[simp] theorem reply_alert (s : State) (kind tag : Byte) (body : List Byte) :
    (s.reply kind tag body).alert = s.alert := by
  have h := congrArg State.alert (reply_frame s kind tag body); exact h
@[simp] theorem reply_capture (s : State) (kind tag : Byte) (body : List Byte) :
    (s.reply kind tag body).capture = s.capture := by
  have h := congrArg State.capture (reply_frame s kind tag body); exact h
@[simp] theorem reply_memory (s : State) (kind tag : Byte) (body : List Byte) :
    (s.reply kind tag body).memory = s.memory := by
  have h := congrArg State.memory (reply_frame s kind tag body); exact h
@[simp] theorem reply_check (s : State) (kind tag : Byte) (body : List Byte) :
    (s.reply kind tag body).check = s.check := by
  have h := congrArg State.check (reply_frame s kind tag body); exact h
@[simp] theorem reply_link (s : State) (kind tag : Byte) (body : List Byte) :
    (s.reply kind tag body).link = s.link := by
  have h := congrArg State.link (reply_frame s kind tag body); exact h
@[simp] theorem reply_handed (s : State) (kind tag : Byte) (body : List Byte) :
    (s.reply kind tag body).handed = s.handed := by
  have h := congrArg State.handed (reply_frame s kind tag body); exact h
@[simp] theorem reply_image (s : State) (kind tag : Byte) (body : List Byte) :
    (s.reply kind tag body).image = s.image := by
  have h := congrArg State.image (reply_frame s kind tag body); exact h
@[simp] theorem reply_blockWork (s : State) (kind tag : Byte) (body : List Byte) :
    (s.reply kind tag body).blockWork = s.blockWork := by
  have h := congrArg State.blockWork (reply_frame s kind tag body); exact h
@[simp] theorem reply_choice (s : State) (kind tag : Byte) (body : List Byte) :
    (s.reply kind tag body).choice = s.choice := by
  have h := congrArg State.choice (reply_frame s kind tag body); exact h
@[simp] theorem reply_pending (s : State) (kind tag : Byte) (body : List Byte) :
    (s.reply kind tag body).pending = s.pending := by
  have h := congrArg State.pending (reply_frame s kind tag body); exact h

/-! ### The event queue -/

/-- A notice enters as the newest entry, and the queue never holds more than 32. -/
theorem enqueue_length (q : ReportQueue) (n : Notice) (h : q.events.length ≤ Config.eventQueueSize) :
    (q.enqueue n).events.length ≤ Config.eventQueueSize := by
  unfold ReportQueue.enqueue
  split
  · simp; omega
  · simp [Config.eventQueueSize] at *; omega

/-- The transmit selection leaves no store longer. -/
theorem transmit_lengths (s : State) :
    s.transmit.report.replies.length ≤ s.report.replies.length ∧
    s.transmit.report.events.length ≤ s.report.events.length ∧ s.transmit.fifo.length ≤ s.fifo.length := by
  unfold State.transmit ReportQueue.afterNotice
  repeat' split
  all_goals simp_all

/-- The transmit selection keeps the reporting settings, the counters but lost-since-last-sent, and the reserved
place. -/
theorem transmit_settings (s : State) :
    s.transmit.report =
      { s.report with
        replies := s.transmit.report.replies, events := s.transmit.report.events
        lostSinceSent := s.transmit.report.lostSinceSent, liveSlot := s.transmit.report.liveSlot
        sending := s.transmit.report.sending } := by
  unfold State.transmit ReportQueue.afterNotice
  repeat' split
  all_goals rfl

/-- The same of an event, which can also raise events lost. -/
theorem offer_settings (s : State) (c : Option Chan) (t : Stamp) (b : EventBody) :
    (s.offer c t b).report =
      { s.report with
        replies := (s.offer c t b).report.replies, events := (s.offer c t b).report.events
        lostSinceSent := (s.offer c t b).report.lostSinceSent, eventsLost := (s.offer c t b).report.eventsLost
        liveSlot := (s.offer c t b).report.liveSlot, sending := (s.offer c t b).report.sending } := by
  unfold State.offer
  split
  · rw [transmit_settings]
    unfold ReportQueue.enqueue
    split <;> rfl
  · rfl

/-- An event that the masks bar changes nothing (R162). -/
theorem offer_barred (s : State) (c : Option Chan) (t : Stamp) (b : EventBody) (h : s.report.passes c b = false) :
    s.offer c t b = s := by
  unfold State.offer; rw [h]; rfl

/-- An event behind a busy transmitter enters the event queue (R162, R163). -/
theorem offer_sending (s : State) (c : Option Chan) (t : Stamp) (b : EventBody) (m : Message)
    (h : s.report.passes c b = true) (hs : s.report.sending = some m) :
    s.offer c t b = { s with report := s.report.enqueue ⟨c, t, b⟩ } := by
  unfold State.offer
  rw [h, if_pos rfl, transmit_sending _ m]
  unfold ReportQueue.enqueue
  split <;> exact hs

/-! ### While no message is chosen (R171) -/

@[simp] theorem engaged_port (s : State) : s.engaged.port = s.port := rfl
@[simp] theorem engaged_range (s : State) : s.engaged.range = s.range := rfl
@[simp] theorem engaged_unit (s : State) : s.engaged.unit = s.unit := rfl
@[simp] theorem engaged_clock (s : State) : s.engaged.clock = s.clock := rfl
@[simp] theorem engaged_store (s : State) : s.engaged.store = s.store := rfl
@[simp] theorem engaged_acc (s : State) : s.engaged.acc = s.acc := rfl
@[simp] theorem engaged_interval (s : State) : s.engaged.interval = s.interval := rfl
@[simp] theorem engaged_fifo (s : State) : s.engaged.fifo = s.fifo := rfl
@[simp] theorem engaged_recordsLost (s : State) : s.engaged.recordsLost = s.recordsLost := rfl
@[simp] theorem engaged_monitor (s : State) : s.engaged.monitor = s.monitor := rfl
@[simp] theorem engaged_nextEpisode (s : State) : s.engaged.nextEpisode = s.nextEpisode := rfl
@[simp] theorem engaged_alert (s : State) : s.engaged.alert = s.alert := rfl
@[simp] theorem engaged_capture (s : State) : s.engaged.capture = s.capture := rfl
@[simp] theorem engaged_memory (s : State) : s.engaged.memory = s.memory := rfl
@[simp] theorem engaged_check (s : State) : s.engaged.check = s.check := rfl
@[simp] theorem engaged_link (s : State) : s.engaged.link = s.link := rfl
@[simp] theorem engaged_handed (s : State) : s.engaged.handed = s.handed := rfl
@[simp] theorem engaged_image (s : State) : s.engaged.image = s.image := rfl
@[simp] theorem engaged_blockWork (s : State) : s.engaged.blockWork = s.blockWork := rfl
@[simp] theorem engaged_choice (s : State) : s.engaged.choice = s.choice := rfl
@[simp] theorem engaged_pending (s : State) : s.engaged.pending = s.pending := rfl

/-- An engaged transmitter differs in what it is sending alone. -/
theorem engaged_report (s : State) : s.engaged.report = { s.report with sending := s.engaged.report.sending } := rfl

@[simp] theorem engaged_sending (s : State) : s.engaged.report.sending.isSome = true := rfl

@[simp] theorem withoutChoosing_port (f : State → State) (s : State) :
    (s.withoutChoosing f).port = (f s.engaged).port := rfl
@[simp] theorem withoutChoosing_range (f : State → State) (s : State) :
    (s.withoutChoosing f).range = (f s.engaged).range := rfl
@[simp] theorem withoutChoosing_unit (f : State → State) (s : State) :
    (s.withoutChoosing f).unit = (f s.engaged).unit := rfl
@[simp] theorem withoutChoosing_clock (f : State → State) (s : State) :
    (s.withoutChoosing f).clock = (f s.engaged).clock := rfl
@[simp] theorem withoutChoosing_store (f : State → State) (s : State) :
    (s.withoutChoosing f).store = (f s.engaged).store := rfl
@[simp] theorem withoutChoosing_acc (f : State → State) (s : State) :
    (s.withoutChoosing f).acc = (f s.engaged).acc := rfl
@[simp] theorem withoutChoosing_interval (f : State → State) (s : State) :
    (s.withoutChoosing f).interval = (f s.engaged).interval := rfl
@[simp] theorem withoutChoosing_fifo (f : State → State) (s : State) :
    (s.withoutChoosing f).fifo = (f s.engaged).fifo := rfl
@[simp] theorem withoutChoosing_recordsLost (f : State → State) (s : State) :
    (s.withoutChoosing f).recordsLost = (f s.engaged).recordsLost := rfl
@[simp] theorem withoutChoosing_monitor (f : State → State) (s : State) :
    (s.withoutChoosing f).monitor = (f s.engaged).monitor := rfl
@[simp] theorem withoutChoosing_nextEpisode (f : State → State) (s : State) :
    (s.withoutChoosing f).nextEpisode = (f s.engaged).nextEpisode := rfl
@[simp] theorem withoutChoosing_alert (f : State → State) (s : State) :
    (s.withoutChoosing f).alert = (f s.engaged).alert := rfl
@[simp] theorem withoutChoosing_capture (f : State → State) (s : State) :
    (s.withoutChoosing f).capture = (f s.engaged).capture := rfl
@[simp] theorem withoutChoosing_memory (f : State → State) (s : State) :
    (s.withoutChoosing f).memory = (f s.engaged).memory := rfl
@[simp] theorem withoutChoosing_check (f : State → State) (s : State) :
    (s.withoutChoosing f).check = (f s.engaged).check := rfl
@[simp] theorem withoutChoosing_link (f : State → State) (s : State) :
    (s.withoutChoosing f).link = (f s.engaged).link := rfl
@[simp] theorem withoutChoosing_handed (f : State → State) (s : State) :
    (s.withoutChoosing f).handed = (f s.engaged).handed := rfl
@[simp] theorem withoutChoosing_image (f : State → State) (s : State) :
    (s.withoutChoosing f).image = (f s.engaged).image := rfl
@[simp] theorem withoutChoosing_blockWork (f : State → State) (s : State) :
    (s.withoutChoosing f).blockWork = (f s.engaged).blockWork := rfl
@[simp] theorem withoutChoosing_choice (f : State → State) (s : State) :
    (s.withoutChoosing f).choice = (f s.engaged).choice := rfl
@[simp] theorem withoutChoosing_pending (f : State → State) (s : State) :
    (s.withoutChoosing f).pending = (f s.engaged).pending := rfl

/-- The report queue after `f` with no message chosen: that of `f`, the transmitter going on as it was. -/
theorem withoutChoosing_report (f : State → State) (s : State) :
    (s.withoutChoosing f).report = { (f s.engaged).report with sending := s.report.sending } := rfl

@[simp] theorem withoutChoosing_sending (f : State → State) (s : State) :
    (s.withoutChoosing f).report.sending = s.report.sending := rfl

end Sys2Proof.Machine
end

