-- ==== Sys2Proof/Laws/CaptureFrames.lean ====
section
/-! SUPPORT. The capture controller's and the monitor's operations: what each leaves unchanged. -/

namespace Sys2Proof.Machine

/-- The arbiter changes the capture controller alone. -/
theorem arbitrate_frame (s : State) :
    (s.arbitrate) =
      { s with
        capture := (s.arbitrate).capture } := by
  unfold State.arbitrate
  (try dsimp only)

@[simp] theorem arbitrate_port (s : State) :
    (s.arbitrate).port = s.port := by
  have h := congrArg State.port (arbitrate_frame s); exact h
@[simp] theorem arbitrate_range (s : State) :
    (s.arbitrate).range = s.range := by
  have h := congrArg State.range (arbitrate_frame s); exact h
@[simp] theorem arbitrate_unit (s : State) :
    (s.arbitrate).unit = s.unit := by
  have h := congrArg State.unit (arbitrate_frame s); exact h
@[simp] theorem arbitrate_clock (s : State) :
    (s.arbitrate).clock = s.clock := by
  have h := congrArg State.clock (arbitrate_frame s); exact h
@[simp] theorem arbitrate_store (s : State) :
    (s.arbitrate).store = s.store := by
  have h := congrArg State.store (arbitrate_frame s); exact h
@[simp] theorem arbitrate_acc (s : State) :
    (s.arbitrate).acc = s.acc := by
  have h := congrArg State.acc (arbitrate_frame s); exact h
@[simp] theorem arbitrate_interval (s : State) :
    (s.arbitrate).interval = s.interval := by
  have h := congrArg State.interval (arbitrate_frame s); exact h
@[simp] theorem arbitrate_fifo (s : State) :
    (s.arbitrate).fifo = s.fifo := by
  have h := congrArg State.fifo (arbitrate_frame s); exact h
@[simp] theorem arbitrate_recordsLost (s : State) :
    (s.arbitrate).recordsLost = s.recordsLost := by
  have h := congrArg State.recordsLost (arbitrate_frame s); exact h
@[simp] theorem arbitrate_monitor (s : State) :
    (s.arbitrate).monitor = s.monitor := by
  have h := congrArg State.monitor (arbitrate_frame s); exact h
@[simp] theorem arbitrate_nextEpisode (s : State) :
    (s.arbitrate).nextEpisode = s.nextEpisode := by
  have h := congrArg State.nextEpisode (arbitrate_frame s); exact h
@[simp] theorem arbitrate_alert (s : State) :
    (s.arbitrate).alert = s.alert := by
  have h := congrArg State.alert (arbitrate_frame s); exact h
@[simp] theorem arbitrate_memory (s : State) :
    (s.arbitrate).memory = s.memory := by
  have h := congrArg State.memory (arbitrate_frame s); exact h
@[simp] theorem arbitrate_check (s : State) :
    (s.arbitrate).check = s.check := by
  have h := congrArg State.check (arbitrate_frame s); exact h
@[simp] theorem arbitrate_report (s : State) :
    (s.arbitrate).report = s.report := by
  have h := congrArg State.report (arbitrate_frame s); exact h
@[simp] theorem arbitrate_link (s : State) :
    (s.arbitrate).link = s.link := by
  have h := congrArg State.link (arbitrate_frame s); exact h
@[simp] theorem arbitrate_handed (s : State) :
    (s.arbitrate).handed = s.handed := by
  have h := congrArg State.handed (arbitrate_frame s); exact h
@[simp] theorem arbitrate_image (s : State) :
    (s.arbitrate).image = s.image := by
  have h := congrArg State.image (arbitrate_frame s); exact h
@[simp] theorem arbitrate_blockWork (s : State) :
    (s.arbitrate).blockWork = s.blockWork := by
  have h := congrArg State.blockWork (arbitrate_frame s); exact h
@[simp] theorem arbitrate_choice (s : State) :
    (s.arbitrate).choice = s.choice := by
  have h := congrArg State.choice (arbitrate_frame s); exact h
@[simp] theorem arbitrate_pending (s : State) :
    (s.arbitrate).pending = s.pending := by
  have h := congrArg State.pending (arbitrate_frame s); exact h

/-- The end of a drain changes the capture controller and offers an event. -/
theorem drain_frame (s : State) :
    (s.drain) =
      { s with
        capture := (s.drain).capture, report := (s.drain).report, fifo := (s.drain).fifo } := by
  unfold State.drain
  (try dsimp only)
  repeat' split
  all_goals (apply State.ext_fields <;> first | rfl | simp)

@[simp] theorem drain_port (s : State) :
    (s.drain).port = s.port := by
  have h := congrArg State.port (drain_frame s); exact h
@[simp] theorem drain_range (s : State) :
    (s.drain).range = s.range := by
  have h := congrArg State.range (drain_frame s); exact h
@[simp] theorem drain_unit (s : State) :
    (s.drain).unit = s.unit := by
  have h := congrArg State.unit (drain_frame s); exact h
@[simp] theorem drain_clock (s : State) :
    (s.drain).clock = s.clock := by
  have h := congrArg State.clock (drain_frame s); exact h
@[simp] theorem drain_store (s : State) :
    (s.drain).store = s.store := by
  have h := congrArg State.store (drain_frame s); exact h
@[simp] theorem drain_acc (s : State) :
    (s.drain).acc = s.acc := by
  have h := congrArg State.acc (drain_frame s); exact h
@[simp] theorem drain_interval (s : State) :
    (s.drain).interval = s.interval := by
  have h := congrArg State.interval (drain_frame s); exact h
@[simp] theorem drain_recordsLost (s : State) :
    (s.drain).recordsLost = s.recordsLost := by
  have h := congrArg State.recordsLost (drain_frame s); exact h
@[simp] theorem drain_monitor (s : State) :
    (s.drain).monitor = s.monitor := by
  have h := congrArg State.monitor (drain_frame s); exact h
@[simp] theorem drain_nextEpisode (s : State) :
    (s.drain).nextEpisode = s.nextEpisode := by
  have h := congrArg State.nextEpisode (drain_frame s); exact h
@[simp] theorem drain_alert (s : State) :
    (s.drain).alert = s.alert := by
  have h := congrArg State.alert (drain_frame s); exact h
@[simp] theorem drain_memory (s : State) :
    (s.drain).memory = s.memory := by
  have h := congrArg State.memory (drain_frame s); exact h
@[simp] theorem drain_check (s : State) :
    (s.drain).check = s.check := by
  have h := congrArg State.check (drain_frame s); exact h
@[simp] theorem drain_link (s : State) :
    (s.drain).link = s.link := by
  have h := congrArg State.link (drain_frame s); exact h
@[simp] theorem drain_handed (s : State) :
    (s.drain).handed = s.handed := by
  have h := congrArg State.handed (drain_frame s); exact h
@[simp] theorem drain_image (s : State) :
    (s.drain).image = s.image := by
  have h := congrArg State.image (drain_frame s); exact h
@[simp] theorem drain_blockWork (s : State) :
    (s.drain).blockWork = s.blockWork := by
  have h := congrArg State.blockWork (drain_frame s); exact h
@[simp] theorem drain_choice (s : State) :
    (s.drain).choice = s.choice := by
  have h := congrArg State.choice (drain_frame s); exact h
@[simp] theorem drain_pending (s : State) :
    (s.drain).pending = s.pending := by
  have h := congrArg State.pending (drain_frame s); exact h

/-- The completion of a write changes the memory and the capture controller, and a drain may end. -/
theorem completeWrite_frame (s : State) (e : BufferEntry) :
    (s.completeWrite e) =
      { s with
        memory := (s.completeWrite e).memory, capture := (s.completeWrite e).capture
        report := (s.completeWrite e).report, fifo := (s.completeWrite e).fifo } := by
  unfold State.completeWrite
  (try dsimp only)
  all_goals (apply State.ext_fields <;> first | rfl | simp)

@[simp] theorem completeWrite_port (s : State) (e : BufferEntry) :
    (s.completeWrite e).port = s.port := by
  have h := congrArg State.port (completeWrite_frame s e); exact h
@[simp] theorem completeWrite_range (s : State) (e : BufferEntry) :
    (s.completeWrite e).range = s.range := by
  have h := congrArg State.range (completeWrite_frame s e); exact h
@[simp] theorem completeWrite_unit (s : State) (e : BufferEntry) :
    (s.completeWrite e).unit = s.unit := by
  have h := congrArg State.unit (completeWrite_frame s e); exact h
@[simp] theorem completeWrite_clock (s : State) (e : BufferEntry) :
    (s.completeWrite e).clock = s.clock := by
  have h := congrArg State.clock (completeWrite_frame s e); exact h
@[simp] theorem completeWrite_store (s : State) (e : BufferEntry) :
    (s.completeWrite e).store = s.store := by
  have h := congrArg State.store (completeWrite_frame s e); exact h
@[simp] theorem completeWrite_acc (s : State) (e : BufferEntry) :
    (s.completeWrite e).acc = s.acc := by
  have h := congrArg State.acc (completeWrite_frame s e); exact h
@[simp] theorem completeWrite_interval (s : State) (e : BufferEntry) :
    (s.completeWrite e).interval = s.interval := by
  have h := congrArg State.interval (completeWrite_frame s e); exact h
@[simp] theorem completeWrite_recordsLost (s : State) (e : BufferEntry) :
    (s.completeWrite e).recordsLost = s.recordsLost := by
  have h := congrArg State.recordsLost (completeWrite_frame s e); exact h
@[simp] theorem completeWrite_monitor (s : State) (e : BufferEntry) :
    (s.completeWrite e).monitor = s.monitor := by
  have h := congrArg State.monitor (completeWrite_frame s e); exact h
@[simp] theorem completeWrite_nextEpisode (s : State) (e : BufferEntry) :
    (s.completeWrite e).nextEpisode = s.nextEpisode := by
  have h := congrArg State.nextEpisode (completeWrite_frame s e); exact h
@[simp] theorem completeWrite_alert (s : State) (e : BufferEntry) :
    (s.completeWrite e).alert = s.alert := by
  have h := congrArg State.alert (completeWrite_frame s e); exact h
@[simp] theorem completeWrite_check (s : State) (e : BufferEntry) :
    (s.completeWrite e).check = s.check := by
  have h := congrArg State.check (completeWrite_frame s e); exact h
@[simp] theorem completeWrite_link (s : State) (e : BufferEntry) :
    (s.completeWrite e).link = s.link := by
  have h := congrArg State.link (completeWrite_frame s e); exact h
@[simp] theorem completeWrite_handed (s : State) (e : BufferEntry) :
    (s.completeWrite e).handed = s.handed := by
  have h := congrArg State.handed (completeWrite_frame s e); exact h
@[simp] theorem completeWrite_image (s : State) (e : BufferEntry) :
    (s.completeWrite e).image = s.image := by
  have h := congrArg State.image (completeWrite_frame s e); exact h
@[simp] theorem completeWrite_blockWork (s : State) (e : BufferEntry) :
    (s.completeWrite e).blockWork = s.blockWork := by
  have h := congrArg State.blockWork (completeWrite_frame s e); exact h
@[simp] theorem completeWrite_choice (s : State) (e : BufferEntry) :
    (s.completeWrite e).choice = s.choice := by
  have h := congrArg State.choice (completeWrite_frame s e); exact h
@[simp] theorem completeWrite_pending (s : State) (e : BufferEntry) :
    (s.completeWrite e).pending = s.pending := by
  have h := congrArg State.pending (completeWrite_frame s e); exact h

/-- The completion of a read changes the capture controller and may form the reply. -/
theorem completeRead_frame (s : State) (r : Fin 16) (p : Nat) :
    (s.completeRead r p) =
      { s with
        capture := (s.completeRead r p).capture, report := (s.completeRead r p).report
        fifo := (s.completeRead r p).fifo } := by
  unfold State.completeRead
  (try dsimp only)
  repeat' split
  all_goals (apply State.ext_fields <;> first | rfl | simp)

@[simp] theorem completeRead_port (s : State) (r : Fin 16) (p : Nat) :
    (s.completeRead r p).port = s.port := by
  have h := congrArg State.port (completeRead_frame s r p); exact h
@[simp] theorem completeRead_range (s : State) (r : Fin 16) (p : Nat) :
    (s.completeRead r p).range = s.range := by
  have h := congrArg State.range (completeRead_frame s r p); exact h
@[simp] theorem completeRead_unit (s : State) (r : Fin 16) (p : Nat) :
    (s.completeRead r p).unit = s.unit := by
  have h := congrArg State.unit (completeRead_frame s r p); exact h
@[simp] theorem completeRead_clock (s : State) (r : Fin 16) (p : Nat) :
    (s.completeRead r p).clock = s.clock := by
  have h := congrArg State.clock (completeRead_frame s r p); exact h
@[simp] theorem completeRead_store (s : State) (r : Fin 16) (p : Nat) :
    (s.completeRead r p).store = s.store := by
  have h := congrArg State.store (completeRead_frame s r p); exact h
@[simp] theorem completeRead_acc (s : State) (r : Fin 16) (p : Nat) :
    (s.completeRead r p).acc = s.acc := by
  have h := congrArg State.acc (completeRead_frame s r p); exact h
@[simp] theorem completeRead_interval (s : State) (r : Fin 16) (p : Nat) :
    (s.completeRead r p).interval = s.interval := by
  have h := congrArg State.interval (completeRead_frame s r p); exact h
@[simp] theorem completeRead_recordsLost (s : State) (r : Fin 16) (p : Nat) :
    (s.completeRead r p).recordsLost = s.recordsLost := by
  have h := congrArg State.recordsLost (completeRead_frame s r p); exact h
@[simp] theorem completeRead_monitor (s : State) (r : Fin 16) (p : Nat) :
    (s.completeRead r p).monitor = s.monitor := by
  have h := congrArg State.monitor (completeRead_frame s r p); exact h
@[simp] theorem completeRead_nextEpisode (s : State) (r : Fin 16) (p : Nat) :
    (s.completeRead r p).nextEpisode = s.nextEpisode := by
  have h := congrArg State.nextEpisode (completeRead_frame s r p); exact h
@[simp] theorem completeRead_alert (s : State) (r : Fin 16) (p : Nat) :
    (s.completeRead r p).alert = s.alert := by
  have h := congrArg State.alert (completeRead_frame s r p); exact h
@[simp] theorem completeRead_memory (s : State) (r : Fin 16) (p : Nat) :
    (s.completeRead r p).memory = s.memory := by
  have h := congrArg State.memory (completeRead_frame s r p); exact h
@[simp] theorem completeRead_check (s : State) (r : Fin 16) (p : Nat) :
    (s.completeRead r p).check = s.check := by
  have h := congrArg State.check (completeRead_frame s r p); exact h
@[simp] theorem completeRead_link (s : State) (r : Fin 16) (p : Nat) :
    (s.completeRead r p).link = s.link := by
  have h := congrArg State.link (completeRead_frame s r p); exact h
@[simp] theorem completeRead_handed (s : State) (r : Fin 16) (p : Nat) :
    (s.completeRead r p).handed = s.handed := by
  have h := congrArg State.handed (completeRead_frame s r p); exact h
@[simp] theorem completeRead_image (s : State) (r : Fin 16) (p : Nat) :
    (s.completeRead r p).image = s.image := by
  have h := congrArg State.image (completeRead_frame s r p); exact h
@[simp] theorem completeRead_blockWork (s : State) (r : Fin 16) (p : Nat) :
    (s.completeRead r p).blockWork = s.blockWork := by
  have h := congrArg State.blockWork (completeRead_frame s r p); exact h
@[simp] theorem completeRead_choice (s : State) (r : Fin 16) (p : Nat) :
    (s.completeRead r p).choice = s.choice := by
  have h := congrArg State.choice (completeRead_frame s r p); exact h
@[simp] theorem completeRead_pending (s : State) (r : Fin 16) (p : Nat) :
    (s.completeRead r p).pending = s.pending := by
  have h := congrArg State.pending (completeRead_frame s r p); exact h

/-- A capture that becomes STORED changes its region and offers an event. -/
theorem storeCapture_frame (s : State) (i : Fin 16) (d : Descriptor) (t : Stamp) :
    (s.storeCapture i d t) =
      { s with
        capture := (s.storeCapture i d t).capture, report := (s.storeCapture i d t).report
        fifo := (s.storeCapture i d t).fifo } := by
  unfold State.storeCapture
  all_goals (apply State.ext_fields <;> first | rfl | simp)

@[simp] theorem storeCapture_port (s : State) (i : Fin 16) (d : Descriptor) (t : Stamp) :
    (s.storeCapture i d t).port = s.port := by
  have h := congrArg State.port (storeCapture_frame s i d t); exact h
@[simp] theorem storeCapture_range (s : State) (i : Fin 16) (d : Descriptor) (t : Stamp) :
    (s.storeCapture i d t).range = s.range := by
  have h := congrArg State.range (storeCapture_frame s i d t); exact h
@[simp] theorem storeCapture_unit (s : State) (i : Fin 16) (d : Descriptor) (t : Stamp) :
    (s.storeCapture i d t).unit = s.unit := by
  have h := congrArg State.unit (storeCapture_frame s i d t); exact h
@[simp] theorem storeCapture_clock (s : State) (i : Fin 16) (d : Descriptor) (t : Stamp) :
    (s.storeCapture i d t).clock = s.clock := by
  have h := congrArg State.clock (storeCapture_frame s i d t); exact h
@[simp] theorem storeCapture_store (s : State) (i : Fin 16) (d : Descriptor) (t : Stamp) :
    (s.storeCapture i d t).store = s.store := by
  have h := congrArg State.store (storeCapture_frame s i d t); exact h
@[simp] theorem storeCapture_acc (s : State) (i : Fin 16) (d : Descriptor) (t : Stamp) :
    (s.storeCapture i d t).acc = s.acc := by
  have h := congrArg State.acc (storeCapture_frame s i d t); exact h
@[simp] theorem storeCapture_interval (s : State) (i : Fin 16) (d : Descriptor) (t : Stamp) :
    (s.storeCapture i d t).interval = s.interval := by
  have h := congrArg State.interval (storeCapture_frame s i d t); exact h
@[simp] theorem storeCapture_recordsLost (s : State) (i : Fin 16) (d : Descriptor) (t : Stamp) :
    (s.storeCapture i d t).recordsLost = s.recordsLost := by
  have h := congrArg State.recordsLost (storeCapture_frame s i d t); exact h
@[simp] theorem storeCapture_monitor (s : State) (i : Fin 16) (d : Descriptor) (t : Stamp) :
    (s.storeCapture i d t).monitor = s.monitor := by
  have h := congrArg State.monitor (storeCapture_frame s i d t); exact h
@[simp] theorem storeCapture_nextEpisode (s : State) (i : Fin 16) (d : Descriptor) (t : Stamp) :
    (s.storeCapture i d t).nextEpisode = s.nextEpisode := by
  have h := congrArg State.nextEpisode (storeCapture_frame s i d t); exact h
@[simp] theorem storeCapture_alert (s : State) (i : Fin 16) (d : Descriptor) (t : Stamp) :
    (s.storeCapture i d t).alert = s.alert := by
  have h := congrArg State.alert (storeCapture_frame s i d t); exact h
@[simp] theorem storeCapture_memory (s : State) (i : Fin 16) (d : Descriptor) (t : Stamp) :
    (s.storeCapture i d t).memory = s.memory := by
  have h := congrArg State.memory (storeCapture_frame s i d t); exact h
@[simp] theorem storeCapture_check (s : State) (i : Fin 16) (d : Descriptor) (t : Stamp) :
    (s.storeCapture i d t).check = s.check := by
  have h := congrArg State.check (storeCapture_frame s i d t); exact h
@[simp] theorem storeCapture_link (s : State) (i : Fin 16) (d : Descriptor) (t : Stamp) :
    (s.storeCapture i d t).link = s.link := by
  have h := congrArg State.link (storeCapture_frame s i d t); exact h
@[simp] theorem storeCapture_handed (s : State) (i : Fin 16) (d : Descriptor) (t : Stamp) :
    (s.storeCapture i d t).handed = s.handed := by
  have h := congrArg State.handed (storeCapture_frame s i d t); exact h
@[simp] theorem storeCapture_image (s : State) (i : Fin 16) (d : Descriptor) (t : Stamp) :
    (s.storeCapture i d t).image = s.image := by
  have h := congrArg State.image (storeCapture_frame s i d t); exact h
@[simp] theorem storeCapture_blockWork (s : State) (i : Fin 16) (d : Descriptor) (t : Stamp) :
    (s.storeCapture i d t).blockWork = s.blockWork := by
  have h := congrArg State.blockWork (storeCapture_frame s i d t); exact h
@[simp] theorem storeCapture_choice (s : State) (i : Fin 16) (d : Descriptor) (t : Stamp) :
    (s.storeCapture i d t).choice = s.choice := by
  have h := congrArg State.choice (storeCapture_frame s i d t); exact h
@[simp] theorem storeCapture_pending (s : State) (i : Fin 16) (d : Descriptor) (t : Stamp) :
    (s.storeCapture i d t).pending = s.pending := by
  have h := congrArg State.pending (storeCapture_frame s i d t); exact h

/-- An opening changes the capture controller and may offer an event. -/
theorem openCapture_frame (s : State) (c : Chan) (e : Nat) (t : Stamp) :
    (s.openCapture c e t).1 =
      { s with
        capture := ((s.openCapture c e t).1).capture, report := ((s.openCapture c e t).1).report
        fifo := ((s.openCapture c e t).1).fifo } := by
  unfold State.openCapture State.startCapture
  (try dsimp only)
  repeat' split
  all_goals (apply State.ext_fields <;> first | rfl | simp)

@[simp] theorem openCapture_port (s : State) (c : Chan) (e : Nat) (t : Stamp) :
    ((s.openCapture c e t).1).port = s.port := by
  have h := congrArg State.port (openCapture_frame s c e t); exact h
@[simp] theorem openCapture_range (s : State) (c : Chan) (e : Nat) (t : Stamp) :
    ((s.openCapture c e t).1).range = s.range := by
  have h := congrArg State.range (openCapture_frame s c e t); exact h
@[simp] theorem openCapture_unit (s : State) (c : Chan) (e : Nat) (t : Stamp) :
    ((s.openCapture c e t).1).unit = s.unit := by
  have h := congrArg State.unit (openCapture_frame s c e t); exact h
@[simp] theorem openCapture_clock (s : State) (c : Chan) (e : Nat) (t : Stamp) :
    ((s.openCapture c e t).1).clock = s.clock := by
  have h := congrArg State.clock (openCapture_frame s c e t); exact h
@[simp] theorem openCapture_store (s : State) (c : Chan) (e : Nat) (t : Stamp) :
    ((s.openCapture c e t).1).store = s.store := by
  have h := congrArg State.store (openCapture_frame s c e t); exact h
@[simp] theorem openCapture_acc (s : State) (c : Chan) (e : Nat) (t : Stamp) :
    ((s.openCapture c e t).1).acc = s.acc := by
  have h := congrArg State.acc (openCapture_frame s c e t); exact h
@[simp] theorem openCapture_interval (s : State) (c : Chan) (e : Nat) (t : Stamp) :
    ((s.openCapture c e t).1).interval = s.interval := by
  have h := congrArg State.interval (openCapture_frame s c e t); exact h
@[simp] theorem openCapture_recordsLost (s : State) (c : Chan) (e : Nat) (t : Stamp) :
    ((s.openCapture c e t).1).recordsLost = s.recordsLost := by
  have h := congrArg State.recordsLost (openCapture_frame s c e t); exact h
@[simp] theorem openCapture_monitor (s : State) (c : Chan) (e : Nat) (t : Stamp) :
    ((s.openCapture c e t).1).monitor = s.monitor := by
  have h := congrArg State.monitor (openCapture_frame s c e t); exact h
@[simp] theorem openCapture_nextEpisode (s : State) (c : Chan) (e : Nat) (t : Stamp) :
    ((s.openCapture c e t).1).nextEpisode = s.nextEpisode := by
  have h := congrArg State.nextEpisode (openCapture_frame s c e t); exact h
@[simp] theorem openCapture_alert (s : State) (c : Chan) (e : Nat) (t : Stamp) :
    ((s.openCapture c e t).1).alert = s.alert := by
  have h := congrArg State.alert (openCapture_frame s c e t); exact h
@[simp] theorem openCapture_memory (s : State) (c : Chan) (e : Nat) (t : Stamp) :
    ((s.openCapture c e t).1).memory = s.memory := by
  have h := congrArg State.memory (openCapture_frame s c e t); exact h
@[simp] theorem openCapture_check (s : State) (c : Chan) (e : Nat) (t : Stamp) :
    ((s.openCapture c e t).1).check = s.check := by
  have h := congrArg State.check (openCapture_frame s c e t); exact h
@[simp] theorem openCapture_link (s : State) (c : Chan) (e : Nat) (t : Stamp) :
    ((s.openCapture c e t).1).link = s.link := by
  have h := congrArg State.link (openCapture_frame s c e t); exact h
@[simp] theorem openCapture_handed (s : State) (c : Chan) (e : Nat) (t : Stamp) :
    ((s.openCapture c e t).1).handed = s.handed := by
  have h := congrArg State.handed (openCapture_frame s c e t); exact h
@[simp] theorem openCapture_image (s : State) (c : Chan) (e : Nat) (t : Stamp) :
    ((s.openCapture c e t).1).image = s.image := by
  have h := congrArg State.image (openCapture_frame s c e t); exact h
@[simp] theorem openCapture_blockWork (s : State) (c : Chan) (e : Nat) (t : Stamp) :
    ((s.openCapture c e t).1).blockWork = s.blockWork := by
  have h := congrArg State.blockWork (openCapture_frame s c e t); exact h
@[simp] theorem openCapture_choice (s : State) (c : Chan) (e : Nat) (t : Stamp) :
    ((s.openCapture c e t).1).choice = s.choice := by
  have h := congrArg State.choice (openCapture_frame s c e t); exact h
@[simp] theorem openCapture_pending (s : State) (c : Chan) (e : Nat) (t : Stamp) :
    ((s.openCapture c e t).1).pending = s.pending := by
  have h := congrArg State.pending (openCapture_frame s c e t); exact h

/-- A close changes the capture controller and may offer an event. -/
theorem closeCapture_frame (s : State) (c : Chan) (id : Option Nat) (r : CloseReason) (t : Stamp) :
    (s.closeCapture c id r t) =
      { s with
        capture := (s.closeCapture c id r t).capture, report := (s.closeCapture c id r t).report
        fifo := (s.closeCapture c id r t).fifo } := by
  unfold State.closeCapture
  (try dsimp only)
  repeat' split
  all_goals (apply State.ext_fields <;> first | rfl | simp)

@[simp] theorem closeCapture_port (s : State) (c : Chan) (id : Option Nat) (r : CloseReason) (t : Stamp) :
    (s.closeCapture c id r t).port = s.port := by
  have h := congrArg State.port (closeCapture_frame s c id r t); exact h
@[simp] theorem closeCapture_range (s : State) (c : Chan) (id : Option Nat) (r : CloseReason) (t : Stamp) :
    (s.closeCapture c id r t).range = s.range := by
  have h := congrArg State.range (closeCapture_frame s c id r t); exact h
@[simp] theorem closeCapture_unit (s : State) (c : Chan) (id : Option Nat) (r : CloseReason) (t : Stamp) :
    (s.closeCapture c id r t).unit = s.unit := by
  have h := congrArg State.unit (closeCapture_frame s c id r t); exact h
@[simp] theorem closeCapture_clock (s : State) (c : Chan) (id : Option Nat) (r : CloseReason) (t : Stamp) :
    (s.closeCapture c id r t).clock = s.clock := by
  have h := congrArg State.clock (closeCapture_frame s c id r t); exact h
@[simp] theorem closeCapture_store (s : State) (c : Chan) (id : Option Nat) (r : CloseReason) (t : Stamp) :
    (s.closeCapture c id r t).store = s.store := by
  have h := congrArg State.store (closeCapture_frame s c id r t); exact h
@[simp] theorem closeCapture_acc (s : State) (c : Chan) (id : Option Nat) (r : CloseReason) (t : Stamp) :
    (s.closeCapture c id r t).acc = s.acc := by
  have h := congrArg State.acc (closeCapture_frame s c id r t); exact h
@[simp] theorem closeCapture_interval (s : State) (c : Chan) (id : Option Nat) (r : CloseReason) (t : Stamp) :
    (s.closeCapture c id r t).interval = s.interval := by
  have h := congrArg State.interval (closeCapture_frame s c id r t); exact h
@[simp] theorem closeCapture_recordsLost (s : State) (c : Chan) (id : Option Nat) (r : CloseReason) (t : Stamp) :
    (s.closeCapture c id r t).recordsLost = s.recordsLost := by
  have h := congrArg State.recordsLost (closeCapture_frame s c id r t); exact h
@[simp] theorem closeCapture_monitor (s : State) (c : Chan) (id : Option Nat) (r : CloseReason) (t : Stamp) :
    (s.closeCapture c id r t).monitor = s.monitor := by
  have h := congrArg State.monitor (closeCapture_frame s c id r t); exact h
@[simp] theorem closeCapture_nextEpisode (s : State) (c : Chan) (id : Option Nat) (r : CloseReason) (t : Stamp) :
    (s.closeCapture c id r t).nextEpisode = s.nextEpisode := by
  have h := congrArg State.nextEpisode (closeCapture_frame s c id r t); exact h
@[simp] theorem closeCapture_alert (s : State) (c : Chan) (id : Option Nat) (r : CloseReason) (t : Stamp) :
    (s.closeCapture c id r t).alert = s.alert := by
  have h := congrArg State.alert (closeCapture_frame s c id r t); exact h
@[simp] theorem closeCapture_memory (s : State) (c : Chan) (id : Option Nat) (r : CloseReason) (t : Stamp) :
    (s.closeCapture c id r t).memory = s.memory := by
  have h := congrArg State.memory (closeCapture_frame s c id r t); exact h
@[simp] theorem closeCapture_check (s : State) (c : Chan) (id : Option Nat) (r : CloseReason) (t : Stamp) :
    (s.closeCapture c id r t).check = s.check := by
  have h := congrArg State.check (closeCapture_frame s c id r t); exact h
@[simp] theorem closeCapture_link (s : State) (c : Chan) (id : Option Nat) (r : CloseReason) (t : Stamp) :
    (s.closeCapture c id r t).link = s.link := by
  have h := congrArg State.link (closeCapture_frame s c id r t); exact h
@[simp] theorem closeCapture_handed (s : State) (c : Chan) (id : Option Nat) (r : CloseReason) (t : Stamp) :
    (s.closeCapture c id r t).handed = s.handed := by
  have h := congrArg State.handed (closeCapture_frame s c id r t); exact h
@[simp] theorem closeCapture_image (s : State) (c : Chan) (id : Option Nat) (r : CloseReason) (t : Stamp) :
    (s.closeCapture c id r t).image = s.image := by
  have h := congrArg State.image (closeCapture_frame s c id r t); exact h
@[simp] theorem closeCapture_blockWork (s : State) (c : Chan) (id : Option Nat) (r : CloseReason) (t : Stamp) :
    (s.closeCapture c id r t).blockWork = s.blockWork := by
  have h := congrArg State.blockWork (closeCapture_frame s c id r t); exact h
@[simp] theorem closeCapture_choice (s : State) (c : Chan) (id : Option Nat) (r : CloseReason) (t : Stamp) :
    (s.closeCapture c id r t).choice = s.choice := by
  have h := congrArg State.choice (closeCapture_frame s c id r t); exact h
@[simp] theorem closeCapture_pending (s : State) (c : Chan) (id : Option Nat) (r : CloseReason) (t : Stamp) :
    (s.closeCapture c id r t).pending = s.pending := by
  have h := congrArg State.pending (closeCapture_frame s c id r t); exact h

/-- A block of a recording changes the capture controller and may offer an event. -/
theorem recordBlock_frame (s : State) (c : Chan) (i : Fin 16) (d : Descriptor) (tl : Option Nat) (b : List Byte) :
    (s.recordBlock c i d tl b) =
      { s with
        capture := (s.recordBlock c i d tl b).capture, report := (s.recordBlock c i d tl b).report
        fifo := (s.recordBlock c i d tl b).fifo } := by
  unfold State.recordBlock
  (try dsimp only)
  repeat' split
  all_goals (apply State.ext_fields <;> first | rfl | simp)

@[simp] theorem recordBlock_port (s : State) (c : Chan) (i : Fin 16) (d : Descriptor) (tl : Option Nat) (b : List Byte) :
    (s.recordBlock c i d tl b).port = s.port := by
  have h := congrArg State.port (recordBlock_frame s c i d tl b); exact h
@[simp] theorem recordBlock_range (s : State) (c : Chan) (i : Fin 16) (d : Descriptor) (tl : Option Nat) (b : List Byte) :
    (s.recordBlock c i d tl b).range = s.range := by
  have h := congrArg State.range (recordBlock_frame s c i d tl b); exact h
@[simp] theorem recordBlock_unit (s : State) (c : Chan) (i : Fin 16) (d : Descriptor) (tl : Option Nat) (b : List Byte) :
    (s.recordBlock c i d tl b).unit = s.unit := by
  have h := congrArg State.unit (recordBlock_frame s c i d tl b); exact h
@[simp] theorem recordBlock_clock (s : State) (c : Chan) (i : Fin 16) (d : Descriptor) (tl : Option Nat) (b : List Byte) :
    (s.recordBlock c i d tl b).clock = s.clock := by
  have h := congrArg State.clock (recordBlock_frame s c i d tl b); exact h
@[simp] theorem recordBlock_store (s : State) (c : Chan) (i : Fin 16) (d : Descriptor) (tl : Option Nat) (b : List Byte) :
    (s.recordBlock c i d tl b).store = s.store := by
  have h := congrArg State.store (recordBlock_frame s c i d tl b); exact h
@[simp] theorem recordBlock_acc (s : State) (c : Chan) (i : Fin 16) (d : Descriptor) (tl : Option Nat) (b : List Byte) :
    (s.recordBlock c i d tl b).acc = s.acc := by
  have h := congrArg State.acc (recordBlock_frame s c i d tl b); exact h
@[simp] theorem recordBlock_interval (s : State) (c : Chan) (i : Fin 16) (d : Descriptor) (tl : Option Nat) (b : List Byte) :
    (s.recordBlock c i d tl b).interval = s.interval := by
  have h := congrArg State.interval (recordBlock_frame s c i d tl b); exact h
@[simp] theorem recordBlock_recordsLost (s : State) (c : Chan) (i : Fin 16) (d : Descriptor) (tl : Option Nat) (b : List Byte) :
    (s.recordBlock c i d tl b).recordsLost = s.recordsLost := by
  have h := congrArg State.recordsLost (recordBlock_frame s c i d tl b); exact h
@[simp] theorem recordBlock_monitor (s : State) (c : Chan) (i : Fin 16) (d : Descriptor) (tl : Option Nat) (b : List Byte) :
    (s.recordBlock c i d tl b).monitor = s.monitor := by
  have h := congrArg State.monitor (recordBlock_frame s c i d tl b); exact h
@[simp] theorem recordBlock_nextEpisode (s : State) (c : Chan) (i : Fin 16) (d : Descriptor) (tl : Option Nat) (b : List Byte) :
    (s.recordBlock c i d tl b).nextEpisode = s.nextEpisode := by
  have h := congrArg State.nextEpisode (recordBlock_frame s c i d tl b); exact h
@[simp] theorem recordBlock_alert (s : State) (c : Chan) (i : Fin 16) (d : Descriptor) (tl : Option Nat) (b : List Byte) :
    (s.recordBlock c i d tl b).alert = s.alert := by
  have h := congrArg State.alert (recordBlock_frame s c i d tl b); exact h
@[simp] theorem recordBlock_memory (s : State) (c : Chan) (i : Fin 16) (d : Descriptor) (tl : Option Nat) (b : List Byte) :
    (s.recordBlock c i d tl b).memory = s.memory := by
  have h := congrArg State.memory (recordBlock_frame s c i d tl b); exact h
@[simp] theorem recordBlock_check (s : State) (c : Chan) (i : Fin 16) (d : Descriptor) (tl : Option Nat) (b : List Byte) :
    (s.recordBlock c i d tl b).check = s.check := by
  have h := congrArg State.check (recordBlock_frame s c i d tl b); exact h
@[simp] theorem recordBlock_link (s : State) (c : Chan) (i : Fin 16) (d : Descriptor) (tl : Option Nat) (b : List Byte) :
    (s.recordBlock c i d tl b).link = s.link := by
  have h := congrArg State.link (recordBlock_frame s c i d tl b); exact h
@[simp] theorem recordBlock_handed (s : State) (c : Chan) (i : Fin 16) (d : Descriptor) (tl : Option Nat) (b : List Byte) :
    (s.recordBlock c i d tl b).handed = s.handed := by
  have h := congrArg State.handed (recordBlock_frame s c i d tl b); exact h
@[simp] theorem recordBlock_image (s : State) (c : Chan) (i : Fin 16) (d : Descriptor) (tl : Option Nat) (b : List Byte) :
    (s.recordBlock c i d tl b).image = s.image := by
  have h := congrArg State.image (recordBlock_frame s c i d tl b); exact h
@[simp] theorem recordBlock_blockWork (s : State) (c : Chan) (i : Fin 16) (d : Descriptor) (tl : Option Nat) (b : List Byte) :
    (s.recordBlock c i d tl b).blockWork = s.blockWork := by
  have h := congrArg State.blockWork (recordBlock_frame s c i d tl b); exact h
@[simp] theorem recordBlock_choice (s : State) (c : Chan) (i : Fin 16) (d : Descriptor) (tl : Option Nat) (b : List Byte) :
    (s.recordBlock c i d tl b).choice = s.choice := by
  have h := congrArg State.choice (recordBlock_frame s c i d tl b); exact h
@[simp] theorem recordBlock_pending (s : State) (c : Chan) (i : Fin 16) (d : Descriptor) (tl : Option Nat) (b : List Byte) :
    (s.recordBlock c i d tl b).pending = s.pending := by
  have h := congrArg State.pending (recordBlock_frame s c i d tl b); exact h

/-- A block of a ring changes the capture controller alone. -/
theorem ringBlock_frame (s : State) (c : Chan) (i : Fin 16) (b : List Byte) :
    (s.ringBlock c i b) =
      { s with
        capture := (s.ringBlock c i b).capture } := by
  unfold State.ringBlock
  (try dsimp only)
  repeat' split
  all_goals (apply State.ext_fields <;> first | rfl | simp)

@[simp] theorem ringBlock_port (s : State) (c : Chan) (i : Fin 16) (b : List Byte) :
    (s.ringBlock c i b).port = s.port := by
  have h := congrArg State.port (ringBlock_frame s c i b); exact h
@[simp] theorem ringBlock_range (s : State) (c : Chan) (i : Fin 16) (b : List Byte) :
    (s.ringBlock c i b).range = s.range := by
  have h := congrArg State.range (ringBlock_frame s c i b); exact h
@[simp] theorem ringBlock_unit (s : State) (c : Chan) (i : Fin 16) (b : List Byte) :
    (s.ringBlock c i b).unit = s.unit := by
  have h := congrArg State.unit (ringBlock_frame s c i b); exact h
@[simp] theorem ringBlock_clock (s : State) (c : Chan) (i : Fin 16) (b : List Byte) :
    (s.ringBlock c i b).clock = s.clock := by
  have h := congrArg State.clock (ringBlock_frame s c i b); exact h
@[simp] theorem ringBlock_store (s : State) (c : Chan) (i : Fin 16) (b : List Byte) :
    (s.ringBlock c i b).store = s.store := by
  have h := congrArg State.store (ringBlock_frame s c i b); exact h
@[simp] theorem ringBlock_acc (s : State) (c : Chan) (i : Fin 16) (b : List Byte) :
    (s.ringBlock c i b).acc = s.acc := by
  have h := congrArg State.acc (ringBlock_frame s c i b); exact h
@[simp] theorem ringBlock_interval (s : State) (c : Chan) (i : Fin 16) (b : List Byte) :
    (s.ringBlock c i b).interval = s.interval := by
  have h := congrArg State.interval (ringBlock_frame s c i b); exact h
@[simp] theorem ringBlock_fifo (s : State) (c : Chan) (i : Fin 16) (b : List Byte) :
    (s.ringBlock c i b).fifo = s.fifo := by
  have h := congrArg State.fifo (ringBlock_frame s c i b); exact h
@[simp] theorem ringBlock_recordsLost (s : State) (c : Chan) (i : Fin 16) (b : List Byte) :
    (s.ringBlock c i b).recordsLost = s.recordsLost := by
  have h := congrArg State.recordsLost (ringBlock_frame s c i b); exact h
@[simp] theorem ringBlock_monitor (s : State) (c : Chan) (i : Fin 16) (b : List Byte) :
    (s.ringBlock c i b).monitor = s.monitor := by
  have h := congrArg State.monitor (ringBlock_frame s c i b); exact h
@[simp] theorem ringBlock_nextEpisode (s : State) (c : Chan) (i : Fin 16) (b : List Byte) :
    (s.ringBlock c i b).nextEpisode = s.nextEpisode := by
  have h := congrArg State.nextEpisode (ringBlock_frame s c i b); exact h
@[simp] theorem ringBlock_alert (s : State) (c : Chan) (i : Fin 16) (b : List Byte) :
    (s.ringBlock c i b).alert = s.alert := by
  have h := congrArg State.alert (ringBlock_frame s c i b); exact h
@[simp] theorem ringBlock_memory (s : State) (c : Chan) (i : Fin 16) (b : List Byte) :
    (s.ringBlock c i b).memory = s.memory := by
  have h := congrArg State.memory (ringBlock_frame s c i b); exact h
@[simp] theorem ringBlock_check (s : State) (c : Chan) (i : Fin 16) (b : List Byte) :
    (s.ringBlock c i b).check = s.check := by
  have h := congrArg State.check (ringBlock_frame s c i b); exact h
@[simp] theorem ringBlock_report (s : State) (c : Chan) (i : Fin 16) (b : List Byte) :
    (s.ringBlock c i b).report = s.report := by
  have h := congrArg State.report (ringBlock_frame s c i b); exact h
@[simp] theorem ringBlock_link (s : State) (c : Chan) (i : Fin 16) (b : List Byte) :
    (s.ringBlock c i b).link = s.link := by
  have h := congrArg State.link (ringBlock_frame s c i b); exact h
@[simp] theorem ringBlock_handed (s : State) (c : Chan) (i : Fin 16) (b : List Byte) :
    (s.ringBlock c i b).handed = s.handed := by
  have h := congrArg State.handed (ringBlock_frame s c i b); exact h
@[simp] theorem ringBlock_image (s : State) (c : Chan) (i : Fin 16) (b : List Byte) :
    (s.ringBlock c i b).image = s.image := by
  have h := congrArg State.image (ringBlock_frame s c i b); exact h
@[simp] theorem ringBlock_blockWork (s : State) (c : Chan) (i : Fin 16) (b : List Byte) :
    (s.ringBlock c i b).blockWork = s.blockWork := by
  have h := congrArg State.blockWork (ringBlock_frame s c i b); exact h
@[simp] theorem ringBlock_choice (s : State) (c : Chan) (i : Fin 16) (b : List Byte) :
    (s.ringBlock c i b).choice = s.choice := by
  have h := congrArg State.choice (ringBlock_frame s c i b); exact h
@[simp] theorem ringBlock_pending (s : State) (c : Chan) (i : Fin 16) (b : List Byte) :
    (s.ringBlock c i b).pending = s.pending := by
  have h := congrArg State.pending (ringBlock_frame s c i b); exact h

/-- The capture controller's block work changes the capture controller and may offer an event. -/
theorem captureStep_frame (s : State) (c : Chan) :
    (s.captureStep c) =
      { s with
        capture := (s.captureStep c).capture, report := (s.captureStep c).report, fifo := (s.captureStep c).fifo } := by
  unfold State.captureStep
  repeat' split
  all_goals (apply State.ext_fields <;> first | rfl | simp)

@[simp] theorem captureStep_port (s : State) (c : Chan) :
    (s.captureStep c).port = s.port := by
  have h := congrArg State.port (captureStep_frame s c); exact h
@[simp] theorem captureStep_range (s : State) (c : Chan) :
    (s.captureStep c).range = s.range := by
  have h := congrArg State.range (captureStep_frame s c); exact h
@[simp] theorem captureStep_unit (s : State) (c : Chan) :
    (s.captureStep c).unit = s.unit := by
  have h := congrArg State.unit (captureStep_frame s c); exact h
@[simp] theorem captureStep_clock (s : State) (c : Chan) :
    (s.captureStep c).clock = s.clock := by
  have h := congrArg State.clock (captureStep_frame s c); exact h
@[simp] theorem captureStep_store (s : State) (c : Chan) :
    (s.captureStep c).store = s.store := by
  have h := congrArg State.store (captureStep_frame s c); exact h
@[simp] theorem captureStep_acc (s : State) (c : Chan) :
    (s.captureStep c).acc = s.acc := by
  have h := congrArg State.acc (captureStep_frame s c); exact h
@[simp] theorem captureStep_interval (s : State) (c : Chan) :
    (s.captureStep c).interval = s.interval := by
  have h := congrArg State.interval (captureStep_frame s c); exact h
@[simp] theorem captureStep_recordsLost (s : State) (c : Chan) :
    (s.captureStep c).recordsLost = s.recordsLost := by
  have h := congrArg State.recordsLost (captureStep_frame s c); exact h
@[simp] theorem captureStep_monitor (s : State) (c : Chan) :
    (s.captureStep c).monitor = s.monitor := by
  have h := congrArg State.monitor (captureStep_frame s c); exact h
@[simp] theorem captureStep_nextEpisode (s : State) (c : Chan) :
    (s.captureStep c).nextEpisode = s.nextEpisode := by
  have h := congrArg State.nextEpisode (captureStep_frame s c); exact h
@[simp] theorem captureStep_alert (s : State) (c : Chan) :
    (s.captureStep c).alert = s.alert := by
  have h := congrArg State.alert (captureStep_frame s c); exact h
@[simp] theorem captureStep_memory (s : State) (c : Chan) :
    (s.captureStep c).memory = s.memory := by
  have h := congrArg State.memory (captureStep_frame s c); exact h
@[simp] theorem captureStep_check (s : State) (c : Chan) :
    (s.captureStep c).check = s.check := by
  have h := congrArg State.check (captureStep_frame s c); exact h
@[simp] theorem captureStep_link (s : State) (c : Chan) :
    (s.captureStep c).link = s.link := by
  have h := congrArg State.link (captureStep_frame s c); exact h
@[simp] theorem captureStep_handed (s : State) (c : Chan) :
    (s.captureStep c).handed = s.handed := by
  have h := congrArg State.handed (captureStep_frame s c); exact h
@[simp] theorem captureStep_image (s : State) (c : Chan) :
    (s.captureStep c).image = s.image := by
  have h := congrArg State.image (captureStep_frame s c); exact h
@[simp] theorem captureStep_blockWork (s : State) (c : Chan) :
    (s.captureStep c).blockWork = s.blockWork := by
  have h := congrArg State.blockWork (captureStep_frame s c); exact h
@[simp] theorem captureStep_choice (s : State) (c : Chan) :
    (s.captureStep c).choice = s.choice := by
  have h := congrArg State.choice (captureStep_frame s c); exact h
@[simp] theorem captureStep_pending (s : State) (c : Chan) :
    (s.captureStep c).pending = s.pending := by
  have h := congrArg State.pending (captureStep_frame s c); exact h

/-- The end of a tail changes the capture controller and offers an event. -/
theorem endTail_frame (s : State) (c : Chan) :
    (s.endTail c) =
      { s with
        capture := (s.endTail c).capture, report := (s.endTail c).report, fifo := (s.endTail c).fifo } := by
  unfold State.endTail
  repeat' split
  all_goals (apply State.ext_fields <;> first | rfl | simp)

@[simp] theorem endTail_port (s : State) (c : Chan) :
    (s.endTail c).port = s.port := by
  have h := congrArg State.port (endTail_frame s c); exact h
@[simp] theorem endTail_range (s : State) (c : Chan) :
    (s.endTail c).range = s.range := by
  have h := congrArg State.range (endTail_frame s c); exact h
@[simp] theorem endTail_unit (s : State) (c : Chan) :
    (s.endTail c).unit = s.unit := by
  have h := congrArg State.unit (endTail_frame s c); exact h
@[simp] theorem endTail_clock (s : State) (c : Chan) :
    (s.endTail c).clock = s.clock := by
  have h := congrArg State.clock (endTail_frame s c); exact h
@[simp] theorem endTail_store (s : State) (c : Chan) :
    (s.endTail c).store = s.store := by
  have h := congrArg State.store (endTail_frame s c); exact h
@[simp] theorem endTail_acc (s : State) (c : Chan) :
    (s.endTail c).acc = s.acc := by
  have h := congrArg State.acc (endTail_frame s c); exact h
@[simp] theorem endTail_interval (s : State) (c : Chan) :
    (s.endTail c).interval = s.interval := by
  have h := congrArg State.interval (endTail_frame s c); exact h
@[simp] theorem endTail_recordsLost (s : State) (c : Chan) :
    (s.endTail c).recordsLost = s.recordsLost := by
  have h := congrArg State.recordsLost (endTail_frame s c); exact h
@[simp] theorem endTail_monitor (s : State) (c : Chan) :
    (s.endTail c).monitor = s.monitor := by
  have h := congrArg State.monitor (endTail_frame s c); exact h
@[simp] theorem endTail_nextEpisode (s : State) (c : Chan) :
    (s.endTail c).nextEpisode = s.nextEpisode := by
  have h := congrArg State.nextEpisode (endTail_frame s c); exact h
@[simp] theorem endTail_alert (s : State) (c : Chan) :
    (s.endTail c).alert = s.alert := by
  have h := congrArg State.alert (endTail_frame s c); exact h
@[simp] theorem endTail_memory (s : State) (c : Chan) :
    (s.endTail c).memory = s.memory := by
  have h := congrArg State.memory (endTail_frame s c); exact h
@[simp] theorem endTail_check (s : State) (c : Chan) :
    (s.endTail c).check = s.check := by
  have h := congrArg State.check (endTail_frame s c); exact h
@[simp] theorem endTail_link (s : State) (c : Chan) :
    (s.endTail c).link = s.link := by
  have h := congrArg State.link (endTail_frame s c); exact h
@[simp] theorem endTail_handed (s : State) (c : Chan) :
    (s.endTail c).handed = s.handed := by
  have h := congrArg State.handed (endTail_frame s c); exact h
@[simp] theorem endTail_image (s : State) (c : Chan) :
    (s.endTail c).image = s.image := by
  have h := congrArg State.image (endTail_frame s c); exact h
@[simp] theorem endTail_blockWork (s : State) (c : Chan) :
    (s.endTail c).blockWork = s.blockWork := by
  have h := congrArg State.blockWork (endTail_frame s c); exact h
@[simp] theorem endTail_choice (s : State) (c : Chan) :
    (s.endTail c).choice = s.choice := by
  have h := congrArg State.choice (endTail_frame s c); exact h
@[simp] theorem endTail_pending (s : State) (c : Chan) :
    (s.endTail c).pending = s.pending := by
  have h := congrArg State.pending (endTail_frame s c); exact h

/-- The capture controller's soft reset changes the capture controller and may offer events. -/
theorem resetCapture_frame (s : State) :
    (s.resetCapture) =
      { s with
        capture := (s.resetCapture).capture, report := (s.resetCapture).report, fifo := (s.resetCapture).fifo } := by
  unfold State.resetCapture Chan.all List.foldl
  (try dsimp only)
  all_goals (apply State.ext_fields <;> first | rfl | simp)

@[simp] theorem resetCapture_port (s : State) :
    (s.resetCapture).port = s.port := by
  have h := congrArg State.port (resetCapture_frame s); exact h
@[simp] theorem resetCapture_range (s : State) :
    (s.resetCapture).range = s.range := by
  have h := congrArg State.range (resetCapture_frame s); exact h
@[simp] theorem resetCapture_unit (s : State) :
    (s.resetCapture).unit = s.unit := by
  have h := congrArg State.unit (resetCapture_frame s); exact h
@[simp] theorem resetCapture_clock (s : State) :
    (s.resetCapture).clock = s.clock := by
  have h := congrArg State.clock (resetCapture_frame s); exact h
@[simp] theorem resetCapture_store (s : State) :
    (s.resetCapture).store = s.store := by
  have h := congrArg State.store (resetCapture_frame s); exact h
@[simp] theorem resetCapture_acc (s : State) :
    (s.resetCapture).acc = s.acc := by
  have h := congrArg State.acc (resetCapture_frame s); exact h
@[simp] theorem resetCapture_interval (s : State) :
    (s.resetCapture).interval = s.interval := by
  have h := congrArg State.interval (resetCapture_frame s); exact h
@[simp] theorem resetCapture_recordsLost (s : State) :
    (s.resetCapture).recordsLost = s.recordsLost := by
  have h := congrArg State.recordsLost (resetCapture_frame s); exact h
@[simp] theorem resetCapture_monitor (s : State) :
    (s.resetCapture).monitor = s.monitor := by
  have h := congrArg State.monitor (resetCapture_frame s); exact h
@[simp] theorem resetCapture_nextEpisode (s : State) :
    (s.resetCapture).nextEpisode = s.nextEpisode := by
  have h := congrArg State.nextEpisode (resetCapture_frame s); exact h
@[simp] theorem resetCapture_alert (s : State) :
    (s.resetCapture).alert = s.alert := by
  have h := congrArg State.alert (resetCapture_frame s); exact h
@[simp] theorem resetCapture_memory (s : State) :
    (s.resetCapture).memory = s.memory := by
  have h := congrArg State.memory (resetCapture_frame s); exact h
@[simp] theorem resetCapture_check (s : State) :
    (s.resetCapture).check = s.check := by
  have h := congrArg State.check (resetCapture_frame s); exact h
@[simp] theorem resetCapture_link (s : State) :
    (s.resetCapture).link = s.link := by
  have h := congrArg State.link (resetCapture_frame s); exact h
@[simp] theorem resetCapture_handed (s : State) :
    (s.resetCapture).handed = s.handed := by
  have h := congrArg State.handed (resetCapture_frame s); exact h
@[simp] theorem resetCapture_image (s : State) :
    (s.resetCapture).image = s.image := by
  have h := congrArg State.image (resetCapture_frame s); exact h
@[simp] theorem resetCapture_blockWork (s : State) :
    (s.resetCapture).blockWork = s.blockWork := by
  have h := congrArg State.blockWork (resetCapture_frame s); exact h
@[simp] theorem resetCapture_choice (s : State) :
    (s.resetCapture).choice = s.choice := by
  have h := congrArg State.choice (resetCapture_frame s); exact h
@[simp] theorem resetCapture_pending (s : State) :
    (s.resetCapture).pending = s.pending := by
  have h := congrArg State.pending (resetCapture_frame s); exact h

/-- The warning test changes the monitor and may offer an event. -/
theorem warnStep_frame (s : State) (c : Chan) (b : BudgetThreshold) (n : Nat) :
    (s.warnStep c b n) =
      { s with
        monitor := (s.warnStep c b n).monitor, report := (s.warnStep c b n).report
        fifo := (s.warnStep c b n).fifo } := by
  unfold State.warnStep
  (try dsimp only)
  repeat' split
  all_goals (apply State.ext_fields <;> first | rfl | simp)

@[simp] theorem warnStep_port (s : State) (c : Chan) (b : BudgetThreshold) (n : Nat) :
    (s.warnStep c b n).port = s.port := by
  have h := congrArg State.port (warnStep_frame s c b n); exact h
@[simp] theorem warnStep_range (s : State) (c : Chan) (b : BudgetThreshold) (n : Nat) :
    (s.warnStep c b n).range = s.range := by
  have h := congrArg State.range (warnStep_frame s c b n); exact h
@[simp] theorem warnStep_unit (s : State) (c : Chan) (b : BudgetThreshold) (n : Nat) :
    (s.warnStep c b n).unit = s.unit := by
  have h := congrArg State.unit (warnStep_frame s c b n); exact h
@[simp] theorem warnStep_clock (s : State) (c : Chan) (b : BudgetThreshold) (n : Nat) :
    (s.warnStep c b n).clock = s.clock := by
  have h := congrArg State.clock (warnStep_frame s c b n); exact h
@[simp] theorem warnStep_store (s : State) (c : Chan) (b : BudgetThreshold) (n : Nat) :
    (s.warnStep c b n).store = s.store := by
  have h := congrArg State.store (warnStep_frame s c b n); exact h
@[simp] theorem warnStep_acc (s : State) (c : Chan) (b : BudgetThreshold) (n : Nat) :
    (s.warnStep c b n).acc = s.acc := by
  have h := congrArg State.acc (warnStep_frame s c b n); exact h
@[simp] theorem warnStep_interval (s : State) (c : Chan) (b : BudgetThreshold) (n : Nat) :
    (s.warnStep c b n).interval = s.interval := by
  have h := congrArg State.interval (warnStep_frame s c b n); exact h
@[simp] theorem warnStep_recordsLost (s : State) (c : Chan) (b : BudgetThreshold) (n : Nat) :
    (s.warnStep c b n).recordsLost = s.recordsLost := by
  have h := congrArg State.recordsLost (warnStep_frame s c b n); exact h
@[simp] theorem warnStep_nextEpisode (s : State) (c : Chan) (b : BudgetThreshold) (n : Nat) :
    (s.warnStep c b n).nextEpisode = s.nextEpisode := by
  have h := congrArg State.nextEpisode (warnStep_frame s c b n); exact h
@[simp] theorem warnStep_alert (s : State) (c : Chan) (b : BudgetThreshold) (n : Nat) :
    (s.warnStep c b n).alert = s.alert := by
  have h := congrArg State.alert (warnStep_frame s c b n); exact h
@[simp] theorem warnStep_capture (s : State) (c : Chan) (b : BudgetThreshold) (n : Nat) :
    (s.warnStep c b n).capture = s.capture := by
  have h := congrArg State.capture (warnStep_frame s c b n); exact h
@[simp] theorem warnStep_memory (s : State) (c : Chan) (b : BudgetThreshold) (n : Nat) :
    (s.warnStep c b n).memory = s.memory := by
  have h := congrArg State.memory (warnStep_frame s c b n); exact h
@[simp] theorem warnStep_check (s : State) (c : Chan) (b : BudgetThreshold) (n : Nat) :
    (s.warnStep c b n).check = s.check := by
  have h := congrArg State.check (warnStep_frame s c b n); exact h
@[simp] theorem warnStep_link (s : State) (c : Chan) (b : BudgetThreshold) (n : Nat) :
    (s.warnStep c b n).link = s.link := by
  have h := congrArg State.link (warnStep_frame s c b n); exact h
@[simp] theorem warnStep_handed (s : State) (c : Chan) (b : BudgetThreshold) (n : Nat) :
    (s.warnStep c b n).handed = s.handed := by
  have h := congrArg State.handed (warnStep_frame s c b n); exact h
@[simp] theorem warnStep_image (s : State) (c : Chan) (b : BudgetThreshold) (n : Nat) :
    (s.warnStep c b n).image = s.image := by
  have h := congrArg State.image (warnStep_frame s c b n); exact h
@[simp] theorem warnStep_blockWork (s : State) (c : Chan) (b : BudgetThreshold) (n : Nat) :
    (s.warnStep c b n).blockWork = s.blockWork := by
  have h := congrArg State.blockWork (warnStep_frame s c b n); exact h
@[simp] theorem warnStep_choice (s : State) (c : Chan) (b : BudgetThreshold) (n : Nat) :
    (s.warnStep c b n).choice = s.choice := by
  have h := congrArg State.choice (warnStep_frame s c b n); exact h
@[simp] theorem warnStep_pending (s : State) (c : Chan) (b : BudgetThreshold) (n : Nat) :
    (s.warnStep c b n).pending = s.pending := by
  have h := congrArg State.pending (warnStep_frame s c b n); exact h

/-- The budget test changes the monitor and may offer an event. -/
theorem spendStep_frame (s : State) (c : Chan) (b : BudgetThreshold) (n : Nat) :
    (s.spendStep c b n) =
      { s with
        monitor := (s.spendStep c b n).monitor, report := (s.spendStep c b n).report
        fifo := (s.spendStep c b n).fifo } := by
  unfold State.spendStep
  (try dsimp only)
  repeat' split
  all_goals (apply State.ext_fields <;> first | rfl | simp)

@[simp] theorem spendStep_port (s : State) (c : Chan) (b : BudgetThreshold) (n : Nat) :
    (s.spendStep c b n).port = s.port := by
  have h := congrArg State.port (spendStep_frame s c b n); exact h
@[simp] theorem spendStep_range (s : State) (c : Chan) (b : BudgetThreshold) (n : Nat) :
    (s.spendStep c b n).range = s.range := by
  have h := congrArg State.range (spendStep_frame s c b n); exact h
@[simp] theorem spendStep_unit (s : State) (c : Chan) (b : BudgetThreshold) (n : Nat) :
    (s.spendStep c b n).unit = s.unit := by
  have h := congrArg State.unit (spendStep_frame s c b n); exact h
@[simp] theorem spendStep_clock (s : State) (c : Chan) (b : BudgetThreshold) (n : Nat) :
    (s.spendStep c b n).clock = s.clock := by
  have h := congrArg State.clock (spendStep_frame s c b n); exact h
@[simp] theorem spendStep_store (s : State) (c : Chan) (b : BudgetThreshold) (n : Nat) :
    (s.spendStep c b n).store = s.store := by
  have h := congrArg State.store (spendStep_frame s c b n); exact h
@[simp] theorem spendStep_acc (s : State) (c : Chan) (b : BudgetThreshold) (n : Nat) :
    (s.spendStep c b n).acc = s.acc := by
  have h := congrArg State.acc (spendStep_frame s c b n); exact h
@[simp] theorem spendStep_interval (s : State) (c : Chan) (b : BudgetThreshold) (n : Nat) :
    (s.spendStep c b n).interval = s.interval := by
  have h := congrArg State.interval (spendStep_frame s c b n); exact h
@[simp] theorem spendStep_recordsLost (s : State) (c : Chan) (b : BudgetThreshold) (n : Nat) :
    (s.spendStep c b n).recordsLost = s.recordsLost := by
  have h := congrArg State.recordsLost (spendStep_frame s c b n); exact h
@[simp] theorem spendStep_nextEpisode (s : State) (c : Chan) (b : BudgetThreshold) (n : Nat) :
    (s.spendStep c b n).nextEpisode = s.nextEpisode := by
  have h := congrArg State.nextEpisode (spendStep_frame s c b n); exact h
@[simp] theorem spendStep_alert (s : State) (c : Chan) (b : BudgetThreshold) (n : Nat) :
    (s.spendStep c b n).alert = s.alert := by
  have h := congrArg State.alert (spendStep_frame s c b n); exact h
@[simp] theorem spendStep_capture (s : State) (c : Chan) (b : BudgetThreshold) (n : Nat) :
    (s.spendStep c b n).capture = s.capture := by
  have h := congrArg State.capture (spendStep_frame s c b n); exact h
@[simp] theorem spendStep_memory (s : State) (c : Chan) (b : BudgetThreshold) (n : Nat) :
    (s.spendStep c b n).memory = s.memory := by
  have h := congrArg State.memory (spendStep_frame s c b n); exact h
@[simp] theorem spendStep_check (s : State) (c : Chan) (b : BudgetThreshold) (n : Nat) :
    (s.spendStep c b n).check = s.check := by
  have h := congrArg State.check (spendStep_frame s c b n); exact h
@[simp] theorem spendStep_link (s : State) (c : Chan) (b : BudgetThreshold) (n : Nat) :
    (s.spendStep c b n).link = s.link := by
  have h := congrArg State.link (spendStep_frame s c b n); exact h
@[simp] theorem spendStep_handed (s : State) (c : Chan) (b : BudgetThreshold) (n : Nat) :
    (s.spendStep c b n).handed = s.handed := by
  have h := congrArg State.handed (spendStep_frame s c b n); exact h
@[simp] theorem spendStep_image (s : State) (c : Chan) (b : BudgetThreshold) (n : Nat) :
    (s.spendStep c b n).image = s.image := by
  have h := congrArg State.image (spendStep_frame s c b n); exact h
@[simp] theorem spendStep_blockWork (s : State) (c : Chan) (b : BudgetThreshold) (n : Nat) :
    (s.spendStep c b n).blockWork = s.blockWork := by
  have h := congrArg State.blockWork (spendStep_frame s c b n); exact h
@[simp] theorem spendStep_choice (s : State) (c : Chan) (b : BudgetThreshold) (n : Nat) :
    (s.spendStep c b n).choice = s.choice := by
  have h := congrArg State.choice (spendStep_frame s c b n); exact h
@[simp] theorem spendStep_pending (s : State) (c : Chan) (b : BudgetThreshold) (n : Nat) :
    (s.spendStep c b n).pending = s.pending := by
  have h := congrArg State.pending (spendStep_frame s c b n); exact h

/-- The budget step changes the monitor and may offer events. -/
theorem budgetStep_frame (s : State) (c : Chan) :
    (s.budgetStep c) =
      { s with
        monitor := (s.budgetStep c).monitor, report := (s.budgetStep c).report, fifo := (s.budgetStep c).fifo } := by
  unfold State.budgetStep
  repeat' split
  all_goals (apply State.ext_fields <;> first | rfl | simp)

@[simp] theorem budgetStep_port (s : State) (c : Chan) :
    (s.budgetStep c).port = s.port := by
  have h := congrArg State.port (budgetStep_frame s c); exact h
@[simp] theorem budgetStep_range (s : State) (c : Chan) :
    (s.budgetStep c).range = s.range := by
  have h := congrArg State.range (budgetStep_frame s c); exact h
@[simp] theorem budgetStep_unit (s : State) (c : Chan) :
    (s.budgetStep c).unit = s.unit := by
  have h := congrArg State.unit (budgetStep_frame s c); exact h
@[simp] theorem budgetStep_clock (s : State) (c : Chan) :
    (s.budgetStep c).clock = s.clock := by
  have h := congrArg State.clock (budgetStep_frame s c); exact h
@[simp] theorem budgetStep_store (s : State) (c : Chan) :
    (s.budgetStep c).store = s.store := by
  have h := congrArg State.store (budgetStep_frame s c); exact h
@[simp] theorem budgetStep_acc (s : State) (c : Chan) :
    (s.budgetStep c).acc = s.acc := by
  have h := congrArg State.acc (budgetStep_frame s c); exact h
@[simp] theorem budgetStep_interval (s : State) (c : Chan) :
    (s.budgetStep c).interval = s.interval := by
  have h := congrArg State.interval (budgetStep_frame s c); exact h
@[simp] theorem budgetStep_recordsLost (s : State) (c : Chan) :
    (s.budgetStep c).recordsLost = s.recordsLost := by
  have h := congrArg State.recordsLost (budgetStep_frame s c); exact h
@[simp] theorem budgetStep_nextEpisode (s : State) (c : Chan) :
    (s.budgetStep c).nextEpisode = s.nextEpisode := by
  have h := congrArg State.nextEpisode (budgetStep_frame s c); exact h
@[simp] theorem budgetStep_alert (s : State) (c : Chan) :
    (s.budgetStep c).alert = s.alert := by
  have h := congrArg State.alert (budgetStep_frame s c); exact h
@[simp] theorem budgetStep_capture (s : State) (c : Chan) :
    (s.budgetStep c).capture = s.capture := by
  have h := congrArg State.capture (budgetStep_frame s c); exact h
@[simp] theorem budgetStep_memory (s : State) (c : Chan) :
    (s.budgetStep c).memory = s.memory := by
  have h := congrArg State.memory (budgetStep_frame s c); exact h
@[simp] theorem budgetStep_check (s : State) (c : Chan) :
    (s.budgetStep c).check = s.check := by
  have h := congrArg State.check (budgetStep_frame s c); exact h
@[simp] theorem budgetStep_link (s : State) (c : Chan) :
    (s.budgetStep c).link = s.link := by
  have h := congrArg State.link (budgetStep_frame s c); exact h
@[simp] theorem budgetStep_handed (s : State) (c : Chan) :
    (s.budgetStep c).handed = s.handed := by
  have h := congrArg State.handed (budgetStep_frame s c); exact h
@[simp] theorem budgetStep_image (s : State) (c : Chan) :
    (s.budgetStep c).image = s.image := by
  have h := congrArg State.image (budgetStep_frame s c); exact h
@[simp] theorem budgetStep_blockWork (s : State) (c : Chan) :
    (s.budgetStep c).blockWork = s.blockWork := by
  have h := congrArg State.blockWork (budgetStep_frame s c); exact h
@[simp] theorem budgetStep_choice (s : State) (c : Chan) :
    (s.budgetStep c).choice = s.choice := by
  have h := congrArg State.choice (budgetStep_frame s c); exact h
@[simp] theorem budgetStep_pending (s : State) (c : Chan) :
    (s.budgetStep c).pending = s.pending := by
  have h := congrArg State.pending (budgetStep_frame s c); exact h

/-- The peak step changes the monitor and may offer an event. -/
theorem peakStep_frame (s : State) (c : Chan) :
    (s.peakStep c) =
      { s with
        monitor := (s.peakStep c).monitor, report := (s.peakStep c).report, fifo := (s.peakStep c).fifo } := by
  unfold State.peakStep
  (try dsimp only)
  repeat' split
  all_goals (apply State.ext_fields <;> first | rfl | simp)

@[simp] theorem peakStep_port (s : State) (c : Chan) :
    (s.peakStep c).port = s.port := by
  have h := congrArg State.port (peakStep_frame s c); exact h
@[simp] theorem peakStep_range (s : State) (c : Chan) :
    (s.peakStep c).range = s.range := by
  have h := congrArg State.range (peakStep_frame s c); exact h
@[simp] theorem peakStep_unit (s : State) (c : Chan) :
    (s.peakStep c).unit = s.unit := by
  have h := congrArg State.unit (peakStep_frame s c); exact h
@[simp] theorem peakStep_clock (s : State) (c : Chan) :
    (s.peakStep c).clock = s.clock := by
  have h := congrArg State.clock (peakStep_frame s c); exact h
@[simp] theorem peakStep_store (s : State) (c : Chan) :
    (s.peakStep c).store = s.store := by
  have h := congrArg State.store (peakStep_frame s c); exact h
@[simp] theorem peakStep_acc (s : State) (c : Chan) :
    (s.peakStep c).acc = s.acc := by
  have h := congrArg State.acc (peakStep_frame s c); exact h
@[simp] theorem peakStep_interval (s : State) (c : Chan) :
    (s.peakStep c).interval = s.interval := by
  have h := congrArg State.interval (peakStep_frame s c); exact h
@[simp] theorem peakStep_recordsLost (s : State) (c : Chan) :
    (s.peakStep c).recordsLost = s.recordsLost := by
  have h := congrArg State.recordsLost (peakStep_frame s c); exact h
@[simp] theorem peakStep_nextEpisode (s : State) (c : Chan) :
    (s.peakStep c).nextEpisode = s.nextEpisode := by
  have h := congrArg State.nextEpisode (peakStep_frame s c); exact h
@[simp] theorem peakStep_alert (s : State) (c : Chan) :
    (s.peakStep c).alert = s.alert := by
  have h := congrArg State.alert (peakStep_frame s c); exact h
@[simp] theorem peakStep_capture (s : State) (c : Chan) :
    (s.peakStep c).capture = s.capture := by
  have h := congrArg State.capture (peakStep_frame s c); exact h
@[simp] theorem peakStep_memory (s : State) (c : Chan) :
    (s.peakStep c).memory = s.memory := by
  have h := congrArg State.memory (peakStep_frame s c); exact h
@[simp] theorem peakStep_check (s : State) (c : Chan) :
    (s.peakStep c).check = s.check := by
  have h := congrArg State.check (peakStep_frame s c); exact h
@[simp] theorem peakStep_link (s : State) (c : Chan) :
    (s.peakStep c).link = s.link := by
  have h := congrArg State.link (peakStep_frame s c); exact h
@[simp] theorem peakStep_handed (s : State) (c : Chan) :
    (s.peakStep c).handed = s.handed := by
  have h := congrArg State.handed (peakStep_frame s c); exact h
@[simp] theorem peakStep_image (s : State) (c : Chan) :
    (s.peakStep c).image = s.image := by
  have h := congrArg State.image (peakStep_frame s c); exact h
@[simp] theorem peakStep_blockWork (s : State) (c : Chan) :
    (s.peakStep c).blockWork = s.blockWork := by
  have h := congrArg State.blockWork (peakStep_frame s c); exact h
@[simp] theorem peakStep_choice (s : State) (c : Chan) :
    (s.peakStep c).choice = s.choice := by
  have h := congrArg State.choice (peakStep_frame s c); exact h
@[simp] theorem peakStep_pending (s : State) (c : Chan) :
    (s.peakStep c).pending = s.pending := by
  have h := congrArg State.pending (peakStep_frame s c); exact h

/-- A close changes the monitor and the capture controller and offers events. -/
theorem closeEpisode_frame (s : State) (c : Chan) (r : CloseReason) (t : Stamp) :
    (s.closeEpisode c r t) =
      { s with
        monitor := (s.closeEpisode c r t).monitor, capture := (s.closeEpisode c r t).capture
        report := (s.closeEpisode c r t).report, fifo := (s.closeEpisode c r t).fifo } := by
  unfold State.closeEpisode
  (try dsimp only)
  repeat' split
  all_goals (apply State.ext_fields <;> first | rfl | simp)

@[simp] theorem closeEpisode_port (s : State) (c : Chan) (r : CloseReason) (t : Stamp) :
    (s.closeEpisode c r t).port = s.port := by
  have h := congrArg State.port (closeEpisode_frame s c r t); exact h
@[simp] theorem closeEpisode_range (s : State) (c : Chan) (r : CloseReason) (t : Stamp) :
    (s.closeEpisode c r t).range = s.range := by
  have h := congrArg State.range (closeEpisode_frame s c r t); exact h
@[simp] theorem closeEpisode_unit (s : State) (c : Chan) (r : CloseReason) (t : Stamp) :
    (s.closeEpisode c r t).unit = s.unit := by
  have h := congrArg State.unit (closeEpisode_frame s c r t); exact h
@[simp] theorem closeEpisode_clock (s : State) (c : Chan) (r : CloseReason) (t : Stamp) :
    (s.closeEpisode c r t).clock = s.clock := by
  have h := congrArg State.clock (closeEpisode_frame s c r t); exact h
@[simp] theorem closeEpisode_store (s : State) (c : Chan) (r : CloseReason) (t : Stamp) :
    (s.closeEpisode c r t).store = s.store := by
  have h := congrArg State.store (closeEpisode_frame s c r t); exact h
@[simp] theorem closeEpisode_acc (s : State) (c : Chan) (r : CloseReason) (t : Stamp) :
    (s.closeEpisode c r t).acc = s.acc := by
  have h := congrArg State.acc (closeEpisode_frame s c r t); exact h
@[simp] theorem closeEpisode_interval (s : State) (c : Chan) (r : CloseReason) (t : Stamp) :
    (s.closeEpisode c r t).interval = s.interval := by
  have h := congrArg State.interval (closeEpisode_frame s c r t); exact h
@[simp] theorem closeEpisode_recordsLost (s : State) (c : Chan) (r : CloseReason) (t : Stamp) :
    (s.closeEpisode c r t).recordsLost = s.recordsLost := by
  have h := congrArg State.recordsLost (closeEpisode_frame s c r t); exact h
@[simp] theorem closeEpisode_nextEpisode (s : State) (c : Chan) (r : CloseReason) (t : Stamp) :
    (s.closeEpisode c r t).nextEpisode = s.nextEpisode := by
  have h := congrArg State.nextEpisode (closeEpisode_frame s c r t); exact h
@[simp] theorem closeEpisode_alert (s : State) (c : Chan) (r : CloseReason) (t : Stamp) :
    (s.closeEpisode c r t).alert = s.alert := by
  have h := congrArg State.alert (closeEpisode_frame s c r t); exact h
@[simp] theorem closeEpisode_memory (s : State) (c : Chan) (r : CloseReason) (t : Stamp) :
    (s.closeEpisode c r t).memory = s.memory := by
  have h := congrArg State.memory (closeEpisode_frame s c r t); exact h
@[simp] theorem closeEpisode_check (s : State) (c : Chan) (r : CloseReason) (t : Stamp) :
    (s.closeEpisode c r t).check = s.check := by
  have h := congrArg State.check (closeEpisode_frame s c r t); exact h
@[simp] theorem closeEpisode_link (s : State) (c : Chan) (r : CloseReason) (t : Stamp) :
    (s.closeEpisode c r t).link = s.link := by
  have h := congrArg State.link (closeEpisode_frame s c r t); exact h
@[simp] theorem closeEpisode_handed (s : State) (c : Chan) (r : CloseReason) (t : Stamp) :
    (s.closeEpisode c r t).handed = s.handed := by
  have h := congrArg State.handed (closeEpisode_frame s c r t); exact h
@[simp] theorem closeEpisode_image (s : State) (c : Chan) (r : CloseReason) (t : Stamp) :
    (s.closeEpisode c r t).image = s.image := by
  have h := congrArg State.image (closeEpisode_frame s c r t); exact h
@[simp] theorem closeEpisode_blockWork (s : State) (c : Chan) (r : CloseReason) (t : Stamp) :
    (s.closeEpisode c r t).blockWork = s.blockWork := by
  have h := congrArg State.blockWork (closeEpisode_frame s c r t); exact h
@[simp] theorem closeEpisode_choice (s : State) (c : Chan) (r : CloseReason) (t : Stamp) :
    (s.closeEpisode c r t).choice = s.choice := by
  have h := congrArg State.choice (closeEpisode_frame s c r t); exact h
@[simp] theorem closeEpisode_pending (s : State) (c : Chan) (r : CloseReason) (t : Stamp) :
    (s.closeEpisode c r t).pending = s.pending := by
  have h := congrArg State.pending (closeEpisode_frame s c r t); exact h

/-- An opening changes the monitor and the capture controller and offers events. -/
theorem openEpisode_frame (s : State) (c : Chan) (l : Int) :
    (s.openEpisode c l) =
      { s with
        nextEpisode := (s.openEpisode c l).nextEpisode, monitor := (s.openEpisode c l).monitor
        capture := (s.openEpisode c l).capture, report := (s.openEpisode c l).report
        fifo := (s.openEpisode c l).fifo } := by
  unfold State.openEpisode
  (try dsimp only)
  all_goals (apply State.ext_fields <;> first | rfl | simp)

@[simp] theorem openEpisode_port (s : State) (c : Chan) (l : Int) :
    (s.openEpisode c l).port = s.port := by
  have h := congrArg State.port (openEpisode_frame s c l); exact h
@[simp] theorem openEpisode_range (s : State) (c : Chan) (l : Int) :
    (s.openEpisode c l).range = s.range := by
  have h := congrArg State.range (openEpisode_frame s c l); exact h
@[simp] theorem openEpisode_unit (s : State) (c : Chan) (l : Int) :
    (s.openEpisode c l).unit = s.unit := by
  have h := congrArg State.unit (openEpisode_frame s c l); exact h
@[simp] theorem openEpisode_clock (s : State) (c : Chan) (l : Int) :
    (s.openEpisode c l).clock = s.clock := by
  have h := congrArg State.clock (openEpisode_frame s c l); exact h
@[simp] theorem openEpisode_store (s : State) (c : Chan) (l : Int) :
    (s.openEpisode c l).store = s.store := by
  have h := congrArg State.store (openEpisode_frame s c l); exact h
@[simp] theorem openEpisode_acc (s : State) (c : Chan) (l : Int) :
    (s.openEpisode c l).acc = s.acc := by
  have h := congrArg State.acc (openEpisode_frame s c l); exact h
@[simp] theorem openEpisode_interval (s : State) (c : Chan) (l : Int) :
    (s.openEpisode c l).interval = s.interval := by
  have h := congrArg State.interval (openEpisode_frame s c l); exact h
@[simp] theorem openEpisode_recordsLost (s : State) (c : Chan) (l : Int) :
    (s.openEpisode c l).recordsLost = s.recordsLost := by
  have h := congrArg State.recordsLost (openEpisode_frame s c l); exact h
@[simp] theorem openEpisode_alert (s : State) (c : Chan) (l : Int) :
    (s.openEpisode c l).alert = s.alert := by
  have h := congrArg State.alert (openEpisode_frame s c l); exact h
@[simp] theorem openEpisode_memory (s : State) (c : Chan) (l : Int) :
    (s.openEpisode c l).memory = s.memory := by
  have h := congrArg State.memory (openEpisode_frame s c l); exact h
@[simp] theorem openEpisode_check (s : State) (c : Chan) (l : Int) :
    (s.openEpisode c l).check = s.check := by
  have h := congrArg State.check (openEpisode_frame s c l); exact h
@[simp] theorem openEpisode_link (s : State) (c : Chan) (l : Int) :
    (s.openEpisode c l).link = s.link := by
  have h := congrArg State.link (openEpisode_frame s c l); exact h
@[simp] theorem openEpisode_handed (s : State) (c : Chan) (l : Int) :
    (s.openEpisode c l).handed = s.handed := by
  have h := congrArg State.handed (openEpisode_frame s c l); exact h
@[simp] theorem openEpisode_image (s : State) (c : Chan) (l : Int) :
    (s.openEpisode c l).image = s.image := by
  have h := congrArg State.image (openEpisode_frame s c l); exact h
@[simp] theorem openEpisode_blockWork (s : State) (c : Chan) (l : Int) :
    (s.openEpisode c l).blockWork = s.blockWork := by
  have h := congrArg State.blockWork (openEpisode_frame s c l); exact h
@[simp] theorem openEpisode_choice (s : State) (c : Chan) (l : Int) :
    (s.openEpisode c l).choice = s.choice := by
  have h := congrArg State.choice (openEpisode_frame s c l); exact h
@[simp] theorem openEpisode_pending (s : State) (c : Chan) (l : Int) :
    (s.openEpisode c l).pending = s.pending := by
  have h := congrArg State.pending (openEpisode_frame s c l); exact h

/-- The episode step changes the monitor and the capture controller and may offer events. -/
theorem episodeStep_frame (s : State) (c : Chan) :
    (s.episodeStep c) =
      { s with
        nextEpisode := (s.episodeStep c).nextEpisode, monitor := (s.episodeStep c).monitor
        capture := (s.episodeStep c).capture, report := (s.episodeStep c).report, fifo := (s.episodeStep c).fifo } := by
  unfold State.episodeStep
  (try dsimp only)
  repeat' split
  all_goals (apply State.ext_fields <;> first | rfl | simp)

@[simp] theorem episodeStep_port (s : State) (c : Chan) :
    (s.episodeStep c).port = s.port := by
  have h := congrArg State.port (episodeStep_frame s c); exact h
@[simp] theorem episodeStep_range (s : State) (c : Chan) :
    (s.episodeStep c).range = s.range := by
  have h := congrArg State.range (episodeStep_frame s c); exact h
@[simp] theorem episodeStep_unit (s : State) (c : Chan) :
    (s.episodeStep c).unit = s.unit := by
  have h := congrArg State.unit (episodeStep_frame s c); exact h
@[simp] theorem episodeStep_clock (s : State) (c : Chan) :
    (s.episodeStep c).clock = s.clock := by
  have h := congrArg State.clock (episodeStep_frame s c); exact h
@[simp] theorem episodeStep_store (s : State) (c : Chan) :
    (s.episodeStep c).store = s.store := by
  have h := congrArg State.store (episodeStep_frame s c); exact h
@[simp] theorem episodeStep_acc (s : State) (c : Chan) :
    (s.episodeStep c).acc = s.acc := by
  have h := congrArg State.acc (episodeStep_frame s c); exact h
@[simp] theorem episodeStep_interval (s : State) (c : Chan) :
    (s.episodeStep c).interval = s.interval := by
  have h := congrArg State.interval (episodeStep_frame s c); exact h
@[simp] theorem episodeStep_recordsLost (s : State) (c : Chan) :
    (s.episodeStep c).recordsLost = s.recordsLost := by
  have h := congrArg State.recordsLost (episodeStep_frame s c); exact h
@[simp] theorem episodeStep_alert (s : State) (c : Chan) :
    (s.episodeStep c).alert = s.alert := by
  have h := congrArg State.alert (episodeStep_frame s c); exact h
@[simp] theorem episodeStep_memory (s : State) (c : Chan) :
    (s.episodeStep c).memory = s.memory := by
  have h := congrArg State.memory (episodeStep_frame s c); exact h
@[simp] theorem episodeStep_check (s : State) (c : Chan) :
    (s.episodeStep c).check = s.check := by
  have h := congrArg State.check (episodeStep_frame s c); exact h
@[simp] theorem episodeStep_link (s : State) (c : Chan) :
    (s.episodeStep c).link = s.link := by
  have h := congrArg State.link (episodeStep_frame s c); exact h
@[simp] theorem episodeStep_handed (s : State) (c : Chan) :
    (s.episodeStep c).handed = s.handed := by
  have h := congrArg State.handed (episodeStep_frame s c); exact h
@[simp] theorem episodeStep_image (s : State) (c : Chan) :
    (s.episodeStep c).image = s.image := by
  have h := congrArg State.image (episodeStep_frame s c); exact h
@[simp] theorem episodeStep_blockWork (s : State) (c : Chan) :
    (s.episodeStep c).blockWork = s.blockWork := by
  have h := congrArg State.blockWork (episodeStep_frame s c); exact h
@[simp] theorem episodeStep_choice (s : State) (c : Chan) :
    (s.episodeStep c).choice = s.choice := by
  have h := congrArg State.choice (episodeStep_frame s c); exact h
@[simp] theorem episodeStep_pending (s : State) (c : Chan) :
    (s.episodeStep c).pending = s.pending := by
  have h := congrArg State.pending (episodeStep_frame s c); exact h

/-- The alert line's step changes the alert line alone. -/
theorem alertStep_frame (s : State) :
    (s.alertStep) =
      { s with
        alert := (s.alertStep).alert } := by
  unfold State.alertStep
  (try dsimp only)

@[simp] theorem alertStep_port (s : State) :
    (s.alertStep).port = s.port := by
  have h := congrArg State.port (alertStep_frame s); exact h
@[simp] theorem alertStep_range (s : State) :
    (s.alertStep).range = s.range := by
  have h := congrArg State.range (alertStep_frame s); exact h
@[simp] theorem alertStep_unit (s : State) :
    (s.alertStep).unit = s.unit := by
  have h := congrArg State.unit (alertStep_frame s); exact h
@[simp] theorem alertStep_clock (s : State) :
    (s.alertStep).clock = s.clock := by
  have h := congrArg State.clock (alertStep_frame s); exact h
@[simp] theorem alertStep_store (s : State) :
    (s.alertStep).store = s.store := by
  have h := congrArg State.store (alertStep_frame s); exact h
@[simp] theorem alertStep_acc (s : State) :
    (s.alertStep).acc = s.acc := by
  have h := congrArg State.acc (alertStep_frame s); exact h
@[simp] theorem alertStep_interval (s : State) :
    (s.alertStep).interval = s.interval := by
  have h := congrArg State.interval (alertStep_frame s); exact h
@[simp] theorem alertStep_fifo (s : State) :
    (s.alertStep).fifo = s.fifo := by
  have h := congrArg State.fifo (alertStep_frame s); exact h
@[simp] theorem alertStep_recordsLost (s : State) :
    (s.alertStep).recordsLost = s.recordsLost := by
  have h := congrArg State.recordsLost (alertStep_frame s); exact h
@[simp] theorem alertStep_monitor (s : State) :
    (s.alertStep).monitor = s.monitor := by
  have h := congrArg State.monitor (alertStep_frame s); exact h
@[simp] theorem alertStep_nextEpisode (s : State) :
    (s.alertStep).nextEpisode = s.nextEpisode := by
  have h := congrArg State.nextEpisode (alertStep_frame s); exact h
@[simp] theorem alertStep_capture (s : State) :
    (s.alertStep).capture = s.capture := by
  have h := congrArg State.capture (alertStep_frame s); exact h
@[simp] theorem alertStep_memory (s : State) :
    (s.alertStep).memory = s.memory := by
  have h := congrArg State.memory (alertStep_frame s); exact h
@[simp] theorem alertStep_check (s : State) :
    (s.alertStep).check = s.check := by
  have h := congrArg State.check (alertStep_frame s); exact h
@[simp] theorem alertStep_report (s : State) :
    (s.alertStep).report = s.report := by
  have h := congrArg State.report (alertStep_frame s); exact h
@[simp] theorem alertStep_link (s : State) :
    (s.alertStep).link = s.link := by
  have h := congrArg State.link (alertStep_frame s); exact h
@[simp] theorem alertStep_handed (s : State) :
    (s.alertStep).handed = s.handed := by
  have h := congrArg State.handed (alertStep_frame s); exact h
@[simp] theorem alertStep_image (s : State) :
    (s.alertStep).image = s.image := by
  have h := congrArg State.image (alertStep_frame s); exact h
@[simp] theorem alertStep_blockWork (s : State) :
    (s.alertStep).blockWork = s.blockWork := by
  have h := congrArg State.blockWork (alertStep_frame s); exact h
@[simp] theorem alertStep_choice (s : State) :
    (s.alertStep).choice = s.choice := by
  have h := congrArg State.choice (alertStep_frame s); exact h
@[simp] theorem alertStep_pending (s : State) :
    (s.alertStep).pending = s.pending := by
  have h := congrArg State.pending (alertStep_frame s); exact h

end Sys2Proof.Machine
end

