-- ==== Sys2Proof/Laws/Order.lean ====
section
/-! SUPPORT. The free orders: whatever is picked, every candidate is taken exactly once, the steps of a block end are
taken in an order that the rules allow, and a property that each step keeps is kept by them all. -/

namespace Sys2Proof.Machine

variable {α : Type} [DecidableEq α]

/-- How the next candidate is taken. -/
theorem schedule_eq (ready : List α → α → Bool) (pick : Nat → Nat) (n k : Nat) (l : List α) :
    schedule ready pick (n + 1) k l =
      match l.filter (ready l) with
      | [] => l
      | [t] => t :: schedule ready pick n (k + 1) (l.erase t)
      | t :: u :: rest =>
        (t :: u :: rest).getD (pick k % (rest.length + 2)) t ::
          schedule ready pick n (k + 1) (l.erase ((t :: u :: rest).getD (pick k % (rest.length + 2)) t)) := rfl

omit [DecidableEq α] in
theorem getD_mem (l : List α) (i : Nat) (d : α) (h : i < l.length) : l.getD i d ∈ l := by
  simp [List.getD, h]

/-- One choice: a ready candidate is taken and the rest are scheduled, or nothing is ready. -/
theorem schedule_succ (ready : List α → α → Bool) (pick : Nat → Nat) (n k : Nat) (l : List α) :
    (∃ x, x ∈ l ∧ ready l x = true ∧
      schedule ready pick (n + 1) k l = x :: schedule ready pick n (k + 1) (l.erase x)) ∨
    ((∀ x ∈ l, ready l x = false) ∧ schedule ready pick (n + 1) k l = l) := by
  rw [schedule_eq]
  match h : l.filter (ready l) with
  | [] =>
    refine .inr ⟨fun x hx => ?_, rfl⟩
    cases hr : ready l x with
    | false => rfl
    | true =>
      have : x ∈ l.filter (ready l) := List.mem_filter.2 ⟨hx, hr⟩
      simp [h] at this
  | [t] =>
    have ht : t ∈ l.filter (ready l) := by simp [h]
    exact .inl ⟨t, (List.mem_filter.1 ht).1, (List.mem_filter.1 ht).2, rfl⟩
  | t :: u :: rest =>
    have hi : pick k % (rest.length + 2) < (t :: u :: rest).length := by
      simp only [List.length_cons]; exact Nat.mod_lt _ (by omega)
    have hx := getD_mem (t :: u :: rest) _ t hi
    rw [← h] at hx
    exact .inl ⟨_, (List.mem_filter.1 hx).1, (List.mem_filter.1 hx).2, by rw [h]⟩

/-- Every candidate is taken exactly once. -/
theorem schedule_perm (ready : List α → α → Bool) (pick : Nat → Nat) (n : Nat) :
    ∀ (k : Nat) (l : List α), (schedule ready pick n k l).Perm l := by
  induction n with
  | zero => intro k l; exact .refl l
  | succ n ih =>
    intro k l
    obtain ⟨x, hx, -, h⟩ | ⟨-, h⟩ := schedule_succ ready pick n k l
    · rw [h]; exact ((ih (k + 1) (l.erase x)).cons x).trans (List.perm_cons_erase hx).symm
    · rw [h]

theorem anyOrder_perm (pick : Nat → Nat) (k : Nat) (l : List α) : (anyOrder pick k l).Perm l :=
  schedule_perm _ pick l.length k l

omit [DecidableEq α] in
/-- A property that every step keeps is kept by a fold of them. -/
theorem foldl_keeps {β : Type} (P : β → Prop) (f : β → α → β) (l : List α)
    (h : ∀ x ∈ l, ∀ b, P b → P (f b x)) : ∀ b, P b → P (l.foldl f b) := by
  induction l with
  | nil => exact fun b hb => hb
  | cons x l ih =>
    intro b hb
    exact ih (fun y hy => h y (List.mem_cons_of_mem x hy)) _ (h x List.mem_cons_self b hb)

/-- What each application of `f` keeps, whatever the number of choices made, `eachFreely` keeps. -/
theorem eachFreely_keeps (P : State → Prop) (pick : Nat → Nat) (l : List α) (f : α → State → State)
    (hc : ∀ s n, P s → P { s with choice := n }) (hf : ∀ x ∈ l, ∀ s, P s → P (f x s)) (s : State) (hs : P s) :
    P (s.eachFreely pick l f) :=
  foldl_keeps P _ _ (fun x hx b hb => hf x ((anyOrder_perm pick s.choice l).mem_iff.1 hx) b hb) _ (hc s _ hs)

@[simp] theorem eachFreely_nil (pick : Nat → Nat) (f : α → State → State) (s : State) :
    s.eachFreely pick [] f = s := rfl

/-! ### The steps of a block end -/

/-- What must come first has the lower place. -/
theorem Task.before_rank (u t : Task) (h : u.before t = true) : u.rank < t.rank := by
  cases u <;> cases t <;> simp_all [Task.before, Task.rank]

/-- No step waits for a range controller's. -/
theorem Task.not_before_range (u : Task) (c : Chan) : u.before (.range c) = false := by
  cases u <;> simp [Task.before, Task.rank]

theorem exists_least_rank (l : List Task) (h : l ≠ []) : ∃ t ∈ l, ∀ u ∈ l, t.rank ≤ u.rank := by
  induction l with
  | nil => exact absurd rfl h
  | cons a l ih =>
    cases l with
    | nil => exact ⟨a, List.mem_cons_self, by simp⟩
    | cons b l =>
      obtain ⟨t, ht, hm⟩ := ih (by simp)
      by_cases ha : a.rank ≤ t.rank
      · exact ⟨a, List.mem_cons_self, fun u hu => by
          rcases List.mem_cons.1 hu with rfl | hu
          · exact Nat.le_refl _
          · exact Nat.le_trans ha (hm u hu)⟩
      · exact ⟨t, List.mem_cons_of_mem a ht, fun u hu => by
          rcases List.mem_cons.1 hu with rfl | hu
          · omega
          · exact hm u hu⟩

/-- With steps left, one of them is ready. -/
theorem exists_ready (l : List Task) (h : l ≠ []) : ∃ t ∈ l, ready l t = true := by
  obtain ⟨t, ht, hm⟩ := exists_least_rank l h
  refine ⟨t, ht, ?_⟩
  rw [ready, List.all_eq_true]
  intro u hu
  have := hm u hu
  cases hb : u.before t with
  | false => rfl
  | true => exact absurd (u.before_rank t hb) (by omega)

/-- The steps are taken in an order that the rules allow: nothing comes after a step that must wait for it. -/
theorem schedule_ordered (pick : Nat → Nat) (n : Nat) :
    ∀ (k : Nat) (l : List Task), l.length ≤ n →
      (schedule ready pick n k l).Pairwise (fun a b => b.before a = false) := by
  induction n with
  | zero =>
    intro k l h
    rw [List.eq_nil_of_length_eq_zero (Nat.le_zero.1 h)]
    exact .nil
  | succ n ih =>
    intro k l h
    obtain ⟨x, hx, hr, he⟩ | ⟨hn, he⟩ := schedule_succ ready pick n k l
    · rw [he, List.pairwise_cons]
      refine ⟨fun b hb => ?_, ih (k + 1) (l.erase x) (by rw [List.length_erase_of_mem hx]; omega)⟩
      have hb' := List.mem_of_mem_erase ((schedule_perm ready pick n (k + 1) (l.erase x)).mem_iff.1 hb)
      rw [ready, List.all_eq_true] at hr
      simpa using hr b hb'
    · cases l with
      | nil => rw [he]; exact .nil
      | cons a l =>
        obtain ⟨t, ht, hr⟩ := exists_ready (a :: l) (by simp)
        rw [hn t ht] at hr; cases hr

/-- What every step keeps, whatever steps are still left, a run of steps keeps. -/
theorem runTasks_keeps (P : State → Prop) (pick : Nat → Nat)
    (hw : ∀ s w, P s → P { s with blockWork := w }) :
    ∀ (l : List Task) (_ : ∀ t ∈ l, ∀ s, P s → P (runTask pick t s)) (s : State), P s → P (runTasks pick l s) := by
  intro l
  induction l with
  | nil => exact fun _ s hs => hs
  | cons t l ih =>
    intro ht s hs
    exact ih (fun u hu => ht u (List.mem_cons_of_mem t hu)) _ (ht t List.mem_cons_self _ (hw s _ hs))

theorem runTasks_append (pick : Nat → Nat) (l m : List Task) (s : State) :
    runTasks pick (l ++ m) s = runTasks pick m (runTasks pick l s) := by
  induction l generalizing s with
  | nil => rfl
  | cons t l ih => exact ih _

/-- What every step keeps, the steps taken keep. -/
theorem takeSteps_keeps (P : State → Prop) (pick : Nat → Nat) (hc : ∀ s n, P s → P { s with choice := n })
    (hw : ∀ s w, P s → P { s with blockWork := w }) (l : List Task)
    (ht : ∀ t ∈ l, ∀ s, P s → P (runTask pick t s)) (s : State) (hs : P s) : P (s.takeSteps pick l) :=
  runTasks_keeps P pick hw _ (fun t h => ht t ((schedule_perm ready pick l.length s.choice l).mem_iff.1 h)) _
    (hc s _ hs)

/-- What every step and the end of the block keep, the completion of a block keeps. -/
theorem finishBlock_keeps (P : State → Prop) (pick : Nat → Nat) (hc : ∀ s n, P s → P { s with choice := n })
    (hw : ∀ s w, P s → P { s with blockWork := w }) (ht : ∀ t s, P s → P (runTask pick t s))
    (he : ∀ s, P s → P s.endOfBlock) (s : State) (hs : P s) : P (s.finishBlock pick) := by
  unfold State.finishBlock
  split
  · exact he _ (takeSteps_keeps P pick hc hw _ (fun t _ => ht t) s hs)
  · exact hs

/-- The same for a block end that has begun. -/
theorem settle_keeps (P : State → Prop) (pick : Nat → Nat) (hc : ∀ s n, P s → P { s with choice := n })
    (hw : ∀ s w, P s → P { s with blockWork := w }) (ht : ∀ t s, P s → P (runTask pick t s))
    (he : ∀ s, P s → P s.endOfBlock) (s : State) (hs : P s) : P (s.settle pick) := by
  unfold State.settle
  split
  · exact finishBlock_keeps P pick hc hw ht he s hs
  · exact hs

/-- The same for the command that names an event inside a block end. -/
theorem takeUpTo_keeps (P : State → Prop) (pick : Nat → Nat) (hc : ∀ s n, P s → P { s with choice := n })
    (hw : ∀ s w, P s → P { s with blockWork := w }) (ht : ∀ t s, P s → P (runTask pick t s)) (t : Task)
    (falls : State → Bool) (s : State) (hs : P s) : P (s.takeUpTo pick t falls) := by
  unfold State.takeUpTo
  split
  · exact hs
  · split
    · dsimp only
      split
      · exact ht t _ (hw _ _ (takeSteps_keeps P pick hc hw _ (fun t _ => ht t) s hs))
      · exact hs
    · exact hs

/-- With no block end begun nothing is settled. -/
theorem settle_of_not_begun (pick : Nat → Nat) (s : State) (h : s.blockEndBegun = false) : s.settle pick = s := by
  unfold State.settle; rw [h]; rfl

/-- With no block end due nothing is finished. -/
theorem finishBlock_of_none (pick : Nat → Nat) (s : State) (h : s.blockWork = none) : s.finishBlock pick = s := by
  unfold State.finishBlock; rw [h]

/-- A block end takes each of its steps once, in an order that the rules allow, and is then over. -/
theorem finishBlock_order (pick : Nat → Nat) (s : State) (l : List Task) (h : s.blockWork = some l) :
    ∃ order : List Task, order.Perm l ∧ order.Pairwise (fun u t => t.before u = false) ∧
      s.finishBlock pick = (runTasks pick order { s with choice := s.choice + l.length }).endOfBlock := by
  refine ⟨schedule ready pick l.length s.choice l, schedule_perm _ _ _ _ _,
    schedule_ordered _ _ _ _ (Nat.le_refl _), ?_⟩
  unfold State.finishBlock State.takeSteps; simp only [h]

/-- A step of a list that holds it stands between those before and those after it, none of which precedes or follows it
against the rules. -/
theorem step_between {order : List Task} {t : Task} (ht : t ∈ order)
    (ho : order.Pairwise (fun u t => t.before u = false)) :
    ∃ pre post, order = pre ++ t :: post ∧ (∀ u ∈ pre, t.before u = false) ∧ ∀ u ∈ post, u.before t = false := by
  obtain ⟨pre, post, rfl⟩ := List.append_of_mem ht
  rw [List.pairwise_append, List.pairwise_cons] at ho
  exact ⟨pre, post, rfl, fun u hu => ho.2.2 u hu t List.mem_cons_self, ho.2.1.1⟩

/-- Taking no steps leaves everything. -/
@[simp] theorem takeSteps_nil (pick : Nat → Nat) (s : State) : s.takeSteps pick [] = s := rfl

end Sys2Proof.Machine
end

