-- ==== Sys2Proof/Laws/Commands.lean ====
section
/-! SUPPORT. A link command that begins execution: the state its rule runs in, and the reply it is answered with. -/

namespace Sys2Proof.Machine

/-! ### The state in which a command executes -/

@[simp] theorem taken_port (s : State) (rest : List Command) : (s.taken rest).port = s.port := rfl
@[simp] theorem taken_range (s : State) (rest : List Command) : (s.taken rest).range = s.range := rfl
@[simp] theorem taken_unit (s : State) (rest : List Command) : (s.taken rest).unit = s.unit := rfl
@[simp] theorem taken_clock (s : State) (rest : List Command) : (s.taken rest).clock = s.clock := rfl
@[simp] theorem taken_store (s : State) (rest : List Command) : (s.taken rest).store = s.store := rfl
@[simp] theorem taken_acc (s : State) (rest : List Command) : (s.taken rest).acc = s.acc := rfl
@[simp] theorem taken_interval (s : State) (rest : List Command) : (s.taken rest).interval = s.interval := rfl
@[simp] theorem taken_fifo (s : State) (rest : List Command) : (s.taken rest).fifo = s.fifo := rfl
@[simp] theorem taken_recordsLost (s : State) (rest : List Command) : (s.taken rest).recordsLost = s.recordsLost := rfl
@[simp] theorem taken_monitor (s : State) (rest : List Command) : (s.taken rest).monitor = s.monitor := rfl
@[simp] theorem taken_nextEpisode (s : State) (rest : List Command) : (s.taken rest).nextEpisode = s.nextEpisode := rfl
@[simp] theorem taken_alert (s : State) (rest : List Command) : (s.taken rest).alert = s.alert := rfl
@[simp] theorem taken_capture (s : State) (rest : List Command) : (s.taken rest).capture = s.capture := rfl
@[simp] theorem taken_memory (s : State) (rest : List Command) : (s.taken rest).memory = s.memory := rfl
@[simp] theorem taken_check (s : State) (rest : List Command) : (s.taken rest).check = s.check := rfl
@[simp] theorem taken_report (s : State) (rest : List Command) : (s.taken rest).report = s.report := rfl
@[simp] theorem taken_handed (s : State) (rest : List Command) : (s.taken rest).handed = s.handed := rfl
@[simp] theorem taken_image (s : State) (rest : List Command) : (s.taken rest).image = s.image := rfl
@[simp] theorem taken_blockWork (s : State) (rest : List Command) : (s.taken rest).blockWork = s.blockWork := rfl
@[simp] theorem taken_choice (s : State) (rest : List Command) : (s.taken rest).choice = s.choice := rfl
@[simp] theorem taken_pending (s : State) (rest : List Command) : (s.taken rest).pending = s.pending := rfl
@[simp] theorem taken_link (s : State) (rest : List Command) :
    (s.taken rest).link = { s.link with queue := rest } := rfl
@[simp] theorem taken_active (s : State) (rest : List Command) : (s.taken rest).active = s.active := rfl
@[simp] theorem taken_k (s : State) (rest : List Command) (c : Chan) : (s.taken rest).k c = s.k c := rfl

/-- A command that begins execution is taken from the command queue. -/
theorem begin_of_begins {s : State} {cmd : Command} {rest : List Command} (h : Begins s cmd rest) :
    s.begin cmd = some (s.taken rest) := by
  obtain ⟨-, hj, hr, hq⟩ := h
  have hc : s.canBegin = true := by simp [State.canBegin, hj, hr]
  obtain hq | ⟨hq, rfl⟩ := hq
  · simp [State.begin, hc, Link.taking, hq, State.taken]
  · simp [State.begin, hc, Link.taking, hq, State.taken]
    rw [← hq]

/-- A command that cannot begin waits. -/
theorem begin_of_waiting {s : State} {cmd : Command}
    (h : s.capture.job.isSome = true ∨ 4 ≤ s.report.replies.length ∨ ∃ c rest, s.link.queue = c :: rest ∧ c ≠ cmd) :
    s.begin cmd = none := by
  obtain h | h | ⟨c, rest, hq, hc⟩ := h
  · simp [State.begin, State.canBegin, Option.isSome_iff_ne_none.1 h]
  · simp [State.begin, State.canBegin, Config.replyQueueSize, Nat.not_lt.2 h]
  · unfold State.begin; split
    · simp [Link.taking, hq, hc]
    · rfl

/-- Every link command whose execution begins runs its rule in the state without it in the command queue. -/
theorem runCommand_of_begins {s : State} {kind tag : Byte} {body : List Byte} {rest : List Command} (pick : Nat → Nat)
    (rule : List Byte → State → Answer) (h : Begins s ⟨kind, tag, body⟩ rest) :
    s.runCommand pick kind tag body rule = (answer kind body rule (s.taken rest)).send kind tag := by
  simp [State.runCommand, settle_of_not_begun pick s h.1, begin_of_begins h]

theorem runCommandThen_of_begins {s : State} {kind tag : Byte} {body : List Byte} {rest : List Command}
    (pick : Nat → Nat) (rule : List Byte → State → Answer) (after : State → State)
    (h : Begins s ⟨kind, tag, body⟩ rest) :
    s.runCommandThen pick kind tag body rule after =
      (let a := answer kind body rule (s.taken rest)
      if a.status = .ok then after (a.send kind tag) else a.send kind tag) := by
  simp [State.runCommandThen, settle_of_not_begun pick s h.1, begin_of_begins h]

theorem runCommand_of_waiting {s : State} {kind tag : Byte} {body : List Byte} (pick : Nat → Nat)
    (rule : List Byte → State → Answer) (hb : s.blockEndBegun = false)
    (h : s.begin ⟨kind, tag, body⟩ = none) : s.runCommand pick kind tag body rule = s.wait ⟨kind, tag, body⟩ := by
  simp [State.runCommand, settle_of_not_begun pick s hb, h]

theorem runCommandThen_of_waiting {s : State} {kind tag : Byte} {body : List Byte} (pick : Nat → Nat)
    (rule : List Byte → State → Answer) (after : State → State) (hb : s.blockEndBegun = false)
    (h : s.begin ⟨kind, tag, body⟩ = none) :
    s.runCommandThen pick kind tag body rule after = s.wait ⟨kind, tag, body⟩ := by
  simp [State.runCommandThen, settle_of_not_begun pick s hb, h]

/-- A command that waits stands in the command queue already, enters it as its newest, or is counted against a full
one. -/
theorem wait_cases (s : State) (cmd : Command) :
    (cmd ∈ s.link.queue ∧ s.wait cmd = s) ∨
      (cmd ∉ s.link.queue ∧ s.link.queue.length < 4 ∧
        s.wait cmd = { s with link := { s.link with queue := s.link.queue ++ [cmd] } }) ∨
      (cmd ∉ s.link.queue ∧ 4 ≤ s.link.queue.length ∧
        s.wait cmd = { s with link := { s.link with overruns := min 65535 (s.link.overruns + 1) } }) := by
  unfold State.wait Link.enqueue
  by_cases hm : cmd ∈ s.link.queue
  · exact .inl ⟨hm, by simp [hm]⟩
  · obtain h | h := Nat.lt_or_ge s.link.queue.length 4
    · exact .inr (.inl ⟨hm, h, by simp [hm, Config.commandQueueSize, Nat.not_le.2 h]⟩)
    · exact .inr (.inr ⟨hm, h, by simp [hm, Config.commandQueueSize, h, bump]⟩)

/-- The row of any link command whose execution cannot begin leaves the command waiting. -/
theorem exec_of_waiting {s : State} {kind tag : Byte} {body : List Byte} (hb : s.blockEndBegun = false)
    (h : s.begin ⟨kind, tag, body⟩ = none) :
    exec (linkCommand kind tag body) s = .next (s.wait ⟨kind, tag, body⟩) := by
  have hk : ∀ n : Nat, kind.toNat = n → n < 256 → kind = BitVec.ofNat 8 n := by
    intro n hn hlt; apply BitVec.eq_of_toNat_eq; simp [hn]; omega
  unfold linkCommand Command.row
  dsimp only
  split <;> rename_i hh <;> first
    | (obtain rfl := hk _ hh (by decide)
       first
        | exact congrArg _ (runCommand_of_waiting _ _ hb h)
        | exact congrArg _ (runCommandThen_of_waiting _ _ _ hb h)
        | (show execReadCapture _ _ _ = _
           unfold execReadCapture
           rw [settle_of_not_begun _ _ hb]
           dsimp only
           rw [show s.begin ⟨0x18, tag, body⟩ = none from h]
           rfl))
    | skip
  have hn : commandLength kind = none := by
    unfold commandLength
    split
    · rfl
    · simp only [imp_false] at *
      exact List.getElem?_eq_none (by simp only [List.length_cons, List.length_nil]; omega)
  show execUnknownKind _ _ _ _ = _
  unfold execUnknownKind
  rw [settle_of_not_begun _ _ hb]
  simp [hn, h]

/-- The oldest command of the link is ready with no command in execution and a place for its reply. -/
theorem readyCommand_eq {s : State} {cmd : Command} {rest : List Command} (hq : s.link.queue = cmd :: rest)
    (hj : s.capture.job = none) (hr : s.report.replies.length < 4) : s.readyCommand = some cmd.row := by
  simp [State.readyCommand, State.canBegin, Config.replyQueueSize, hq, hj, hr]

/-- No command is ready with none waiting, one in execution, or no place for a reply. -/
theorem readyCommand_none {s : State}
    (h : s.link.queue = [] ∨ s.capture.job.isSome = true ∨ 4 ≤ s.report.replies.length) : s.readyCommand = none := by
  obtain h | h | h := h
  · simp [State.readyCommand, h]
  · simp [State.readyCommand, State.canBegin, Option.isSome_iff_ne_none.1 h]
  · simp [State.readyCommand, State.canBegin, Config.replyQueueSize, Nat.not_lt.2 h]

/-- A step with no command of the environment waiting begins the oldest command of the link, or idles. -/
theorem step_of_quiet {s : State} (h : s.pending = []) :
    step s = match s.readyCommand with
      | some c => exec c s
      | none => .next s := by
  cases hr : s.readyCommand <;> simp [step, h, hr]

/-- A body of the right length reaches the command's own rule. -/
theorem answer_of_length {kind : Byte} {body : List Byte} (rule : List Byte → State → Answer) (s : State)
    (h : commandLength kind = some body.length) : answer kind body rule s = rule body s := by
  simp [answer, h]

/-- A body of another length is refused. -/
theorem answer_of_bad_length {kind : Byte} {body : List Byte} (rule : List Byte → State → Answer) (s : State)
    (h : commandLength kind ≠ some body.length) : answer kind body rule s = .refuse s .badLength := by
  simp [answer, h]

/-! ### Replies -/

/-- A reply that is formed stands behind every message before it, and nothing else of the part changes. -/
theorem reply_answered (s : State) (kind tag : Byte) (body : List Byte) :
    ∃ q, Answered s.report q ⟨kind, tag, body⟩ ∧ s.reply kind tag body = { s with report := q } := by
  unfold State.reply State.transmit
  cases hs : s.report.sending with
  | some m => exact ⟨_, ⟨by simp [hs], by simp [hs], by simp [hs]⟩, rfl⟩
  | none =>
    cases hr : s.report.replies with
    | nil => exact ⟨_, ⟨rfl, rfl, by simp [hs, hr]⟩, rfl⟩
    | cons m ms => exact ⟨_, ⟨rfl, rfl, by simp [hs, hr]⟩, rfl⟩

/-- The newest message of a report queue that a reply has just entered is that reply. -/
theorem reply_last (s : State) (kind tag : Byte) (body : List Byte) :
    RepliedLast (s.reply kind tag body).report ⟨kind, tag, body⟩ := by
  obtain ⟨q, ⟨-, -, hq⟩, he⟩ := reply_answered s kind tag body
  rw [he, RepliedLast, hq]; simp

/-- A reply leaves the event queue alone. -/
theorem reply_events (s : State) (kind tag : Byte) (body : List Byte) :
    (s.reply kind tag body).report.events = s.report.events := by
  obtain ⟨q, ⟨hq, -, -⟩, he⟩ := reply_answered s kind tag body
  rw [he]; show q.events = _; rw [hq]

/-- What a link command comes to when its execution begins with a body of its length: its rule's state with the reply
formed behind every message before it. -/
theorem runCommand_answered {s : State} {kind tag : Byte} {body : List Byte} {rest : List Command} (pick : Nat → Nat)
    (rule : List Byte → State → Answer) (h : Begins s ⟨kind, tag, body⟩ rest)
    (hl : commandLength kind = some body.length) :
    ∃ q, Answered (rule body (s.taken rest)).state.report q ⟨kind + 0x80, tag, (rule body (s.taken rest)).body⟩ ∧
      s.runCommand pick kind tag body rule = { (rule body (s.taken rest)).state with report := q } := by
  obtain ⟨q, hq, he⟩ := reply_answered (rule body (s.taken rest)).state (kind + 0x80) tag (rule body (s.taken rest)).body
  refine ⟨q, hq, ?_⟩
  rw [runCommand_of_begins pick rule h, answer_of_length rule _ hl]
  exact he

/-- With a body of any other length it is answered BAD_LENGTH and nothing else changes. -/
theorem runCommand_bad_length {s : State} {kind tag : Byte} {body : List Byte} {rest : List Command}
    (pick : Nat → Nat) (rule : List Byte → State → Answer) (h : Begins s ⟨kind, tag, body⟩ rest)
    (hl : commandLength kind ≠ some body.length) :
    ∃ q, Answered s.report q ⟨kind + 0x80, tag, [2]⟩ ∧
      s.runCommand pick kind tag body rule = { s.taken rest with report := q } := by
  obtain ⟨q, hq, he⟩ := reply_answered (s.taken rest) (kind + 0x80) tag [2]
  refine ⟨q, hq, ?_⟩
  rw [runCommand_of_begins pick rule h, answer_of_bad_length rule _ hl]
  exact he

end Sys2Proof.Machine
end

