-- ==== Sys2Proof/Laws/IntervalFrames.lean ====
section
/-! SUPPORT. The check engine's, the accumulator's and the other units' operations at a block end: what each leaves unchanged. -/

namespace Sys2Proof.Machine

/-- The handing of a block changes the unit, the block summary and what is handed. -/
theorem handBlock_frame (s : State) (c : Chan) :
    (s.handBlock c) =
      { s with
        range := (s.handBlock c).range, unit := (s.handBlock c).unit, handed := (s.handBlock c).handed } := by
  unfold State.handBlock
  (try dsimp only)
  all_goals (apply State.ext_fields <;> first | rfl | simp)

@[simp] theorem handBlock_port (s : State) (c : Chan) :
    (s.handBlock c).port = s.port := by
  have h := congrArg State.port (handBlock_frame s c); exact h
@[simp] theorem handBlock_clock (s : State) (c : Chan) :
    (s.handBlock c).clock = s.clock := by
  have h := congrArg State.clock (handBlock_frame s c); exact h
@[simp] theorem handBlock_store (s : State) (c : Chan) :
    (s.handBlock c).store = s.store := by
  have h := congrArg State.store (handBlock_frame s c); exact h
@[simp] theorem handBlock_acc (s : State) (c : Chan) :
    (s.handBlock c).acc = s.acc := by
  have h := congrArg State.acc (handBlock_frame s c); exact h
@[simp] theorem handBlock_interval (s : State) (c : Chan) :
    (s.handBlock c).interval = s.interval := by
  have h := congrArg State.interval (handBlock_frame s c); exact h
@[simp] theorem handBlock_fifo (s : State) (c : Chan) :
    (s.handBlock c).fifo = s.fifo := by
  have h := congrArg State.fifo (handBlock_frame s c); exact h
@[simp] theorem handBlock_recordsLost (s : State) (c : Chan) :
    (s.handBlock c).recordsLost = s.recordsLost := by
  have h := congrArg State.recordsLost (handBlock_frame s c); exact h
@[simp] theorem handBlock_monitor (s : State) (c : Chan) :
    (s.handBlock c).monitor = s.monitor := by
  have h := congrArg State.monitor (handBlock_frame s c); exact h
@[simp] theorem handBlock_nextEpisode (s : State) (c : Chan) :
    (s.handBlock c).nextEpisode = s.nextEpisode := by
  have h := congrArg State.nextEpisode (handBlock_frame s c); exact h
@[simp] theorem handBlock_alert (s : State) (c : Chan) :
    (s.handBlock c).alert = s.alert := by
  have h := congrArg State.alert (handBlock_frame s c); exact h
@[simp] theorem handBlock_capture (s : State) (c : Chan) :
    (s.handBlock c).capture = s.capture := by
  have h := congrArg State.capture (handBlock_frame s c); exact h
@[simp] theorem handBlock_memory (s : State) (c : Chan) :
    (s.handBlock c).memory = s.memory := by
  have h := congrArg State.memory (handBlock_frame s c); exact h
@[simp] theorem handBlock_check (s : State) (c : Chan) :
    (s.handBlock c).check = s.check := by
  have h := congrArg State.check (handBlock_frame s c); exact h
@[simp] theorem handBlock_report (s : State) (c : Chan) :
    (s.handBlock c).report = s.report := by
  have h := congrArg State.report (handBlock_frame s c); exact h
@[simp] theorem handBlock_link (s : State) (c : Chan) :
    (s.handBlock c).link = s.link := by
  have h := congrArg State.link (handBlock_frame s c); exact h
@[simp] theorem handBlock_image (s : State) (c : Chan) :
    (s.handBlock c).image = s.image := by
  have h := congrArg State.image (handBlock_frame s c); exact h
@[simp] theorem handBlock_blockWork (s : State) (c : Chan) :
    (s.handBlock c).blockWork = s.blockWork := by
  have h := congrArg State.blockWork (handBlock_frame s c); exact h
@[simp] theorem handBlock_choice (s : State) (c : Chan) :
    (s.handBlock c).choice = s.choice := by
  have h := congrArg State.choice (handBlock_frame s c); exact h
@[simp] theorem handBlock_pending (s : State) (c : Chan) :
    (s.handBlock c).pending = s.pending := by
  have h := congrArg State.pending (handBlock_frame s c); exact h

/-- A staged adjustment changes the store alone. -/
theorem stageK_frame (s : State) (c : Chan) (k : Int) :
    (s.stageK c k) =
      { s with
        store := (s.stageK c k).store } := by
  unfold State.stageK
  (try dsimp only)

@[simp] theorem stageK_port (s : State) (c : Chan) (k : Int) :
    (s.stageK c k).port = s.port := by
  have h := congrArg State.port (stageK_frame s c k); exact h
@[simp] theorem stageK_range (s : State) (c : Chan) (k : Int) :
    (s.stageK c k).range = s.range := by
  have h := congrArg State.range (stageK_frame s c k); exact h
@[simp] theorem stageK_unit (s : State) (c : Chan) (k : Int) :
    (s.stageK c k).unit = s.unit := by
  have h := congrArg State.unit (stageK_frame s c k); exact h
@[simp] theorem stageK_clock (s : State) (c : Chan) (k : Int) :
    (s.stageK c k).clock = s.clock := by
  have h := congrArg State.clock (stageK_frame s c k); exact h
@[simp] theorem stageK_acc (s : State) (c : Chan) (k : Int) :
    (s.stageK c k).acc = s.acc := by
  have h := congrArg State.acc (stageK_frame s c k); exact h
@[simp] theorem stageK_interval (s : State) (c : Chan) (k : Int) :
    (s.stageK c k).interval = s.interval := by
  have h := congrArg State.interval (stageK_frame s c k); exact h
@[simp] theorem stageK_fifo (s : State) (c : Chan) (k : Int) :
    (s.stageK c k).fifo = s.fifo := by
  have h := congrArg State.fifo (stageK_frame s c k); exact h
@[simp] theorem stageK_recordsLost (s : State) (c : Chan) (k : Int) :
    (s.stageK c k).recordsLost = s.recordsLost := by
  have h := congrArg State.recordsLost (stageK_frame s c k); exact h
@[simp] theorem stageK_monitor (s : State) (c : Chan) (k : Int) :
    (s.stageK c k).monitor = s.monitor := by
  have h := congrArg State.monitor (stageK_frame s c k); exact h
@[simp] theorem stageK_nextEpisode (s : State) (c : Chan) (k : Int) :
    (s.stageK c k).nextEpisode = s.nextEpisode := by
  have h := congrArg State.nextEpisode (stageK_frame s c k); exact h
@[simp] theorem stageK_alert (s : State) (c : Chan) (k : Int) :
    (s.stageK c k).alert = s.alert := by
  have h := congrArg State.alert (stageK_frame s c k); exact h
@[simp] theorem stageK_capture (s : State) (c : Chan) (k : Int) :
    (s.stageK c k).capture = s.capture := by
  have h := congrArg State.capture (stageK_frame s c k); exact h
@[simp] theorem stageK_memory (s : State) (c : Chan) (k : Int) :
    (s.stageK c k).memory = s.memory := by
  have h := congrArg State.memory (stageK_frame s c k); exact h
@[simp] theorem stageK_check (s : State) (c : Chan) (k : Int) :
    (s.stageK c k).check = s.check := by
  have h := congrArg State.check (stageK_frame s c k); exact h
@[simp] theorem stageK_report (s : State) (c : Chan) (k : Int) :
    (s.stageK c k).report = s.report := by
  have h := congrArg State.report (stageK_frame s c k); exact h
@[simp] theorem stageK_link (s : State) (c : Chan) (k : Int) :
    (s.stageK c k).link = s.link := by
  have h := congrArg State.link (stageK_frame s c k); exact h
@[simp] theorem stageK_handed (s : State) (c : Chan) (k : Int) :
    (s.stageK c k).handed = s.handed := by
  have h := congrArg State.handed (stageK_frame s c k); exact h
@[simp] theorem stageK_image (s : State) (c : Chan) (k : Int) :
    (s.stageK c k).image = s.image := by
  have h := congrArg State.image (stageK_frame s c k); exact h
@[simp] theorem stageK_blockWork (s : State) (c : Chan) (k : Int) :
    (s.stageK c k).blockWork = s.blockWork := by
  have h := congrArg State.blockWork (stageK_frame s c k); exact h
@[simp] theorem stageK_choice (s : State) (c : Chan) (k : Int) :
    (s.stageK c k).choice = s.choice := by
  have h := congrArg State.choice (stageK_frame s c k); exact h
@[simp] theorem stageK_pending (s : State) (c : Chan) (k : Int) :
    (s.stageK c k).pending = s.pending := by
  have h := congrArg State.pending (stageK_frame s c k); exact h

/-- An adjustment changes the store alone. -/
theorem adjustK_frame (s : State) (c : Chan) (o : Adjustment) (d : Option Int) :
    (s.adjustK c o d) =
      { s with
        store := (s.adjustK c o d).store } := by
  unfold State.adjustK
  repeat' split
  all_goals (apply State.ext_fields <;> first | rfl | simp)

@[simp] theorem adjustK_port (s : State) (c : Chan) (o : Adjustment) (d : Option Int) :
    (s.adjustK c o d).port = s.port := by
  have h := congrArg State.port (adjustK_frame s c o d); exact h
@[simp] theorem adjustK_range (s : State) (c : Chan) (o : Adjustment) (d : Option Int) :
    (s.adjustK c o d).range = s.range := by
  have h := congrArg State.range (adjustK_frame s c o d); exact h
@[simp] theorem adjustK_unit (s : State) (c : Chan) (o : Adjustment) (d : Option Int) :
    (s.adjustK c o d).unit = s.unit := by
  have h := congrArg State.unit (adjustK_frame s c o d); exact h
@[simp] theorem adjustK_clock (s : State) (c : Chan) (o : Adjustment) (d : Option Int) :
    (s.adjustK c o d).clock = s.clock := by
  have h := congrArg State.clock (adjustK_frame s c o d); exact h
@[simp] theorem adjustK_acc (s : State) (c : Chan) (o : Adjustment) (d : Option Int) :
    (s.adjustK c o d).acc = s.acc := by
  have h := congrArg State.acc (adjustK_frame s c o d); exact h
@[simp] theorem adjustK_interval (s : State) (c : Chan) (o : Adjustment) (d : Option Int) :
    (s.adjustK c o d).interval = s.interval := by
  have h := congrArg State.interval (adjustK_frame s c o d); exact h
@[simp] theorem adjustK_fifo (s : State) (c : Chan) (o : Adjustment) (d : Option Int) :
    (s.adjustK c o d).fifo = s.fifo := by
  have h := congrArg State.fifo (adjustK_frame s c o d); exact h
@[simp] theorem adjustK_recordsLost (s : State) (c : Chan) (o : Adjustment) (d : Option Int) :
    (s.adjustK c o d).recordsLost = s.recordsLost := by
  have h := congrArg State.recordsLost (adjustK_frame s c o d); exact h
@[simp] theorem adjustK_monitor (s : State) (c : Chan) (o : Adjustment) (d : Option Int) :
    (s.adjustK c o d).monitor = s.monitor := by
  have h := congrArg State.monitor (adjustK_frame s c o d); exact h
@[simp] theorem adjustK_nextEpisode (s : State) (c : Chan) (o : Adjustment) (d : Option Int) :
    (s.adjustK c o d).nextEpisode = s.nextEpisode := by
  have h := congrArg State.nextEpisode (adjustK_frame s c o d); exact h
@[simp] theorem adjustK_alert (s : State) (c : Chan) (o : Adjustment) (d : Option Int) :
    (s.adjustK c o d).alert = s.alert := by
  have h := congrArg State.alert (adjustK_frame s c o d); exact h
@[simp] theorem adjustK_capture (s : State) (c : Chan) (o : Adjustment) (d : Option Int) :
    (s.adjustK c o d).capture = s.capture := by
  have h := congrArg State.capture (adjustK_frame s c o d); exact h
@[simp] theorem adjustK_memory (s : State) (c : Chan) (o : Adjustment) (d : Option Int) :
    (s.adjustK c o d).memory = s.memory := by
  have h := congrArg State.memory (adjustK_frame s c o d); exact h
@[simp] theorem adjustK_check (s : State) (c : Chan) (o : Adjustment) (d : Option Int) :
    (s.adjustK c o d).check = s.check := by
  have h := congrArg State.check (adjustK_frame s c o d); exact h
@[simp] theorem adjustK_report (s : State) (c : Chan) (o : Adjustment) (d : Option Int) :
    (s.adjustK c o d).report = s.report := by
  have h := congrArg State.report (adjustK_frame s c o d); exact h
@[simp] theorem adjustK_link (s : State) (c : Chan) (o : Adjustment) (d : Option Int) :
    (s.adjustK c o d).link = s.link := by
  have h := congrArg State.link (adjustK_frame s c o d); exact h
@[simp] theorem adjustK_handed (s : State) (c : Chan) (o : Adjustment) (d : Option Int) :
    (s.adjustK c o d).handed = s.handed := by
  have h := congrArg State.handed (adjustK_frame s c o d); exact h
@[simp] theorem adjustK_image (s : State) (c : Chan) (o : Adjustment) (d : Option Int) :
    (s.adjustK c o d).image = s.image := by
  have h := congrArg State.image (adjustK_frame s c o d); exact h
@[simp] theorem adjustK_blockWork (s : State) (c : Chan) (o : Adjustment) (d : Option Int) :
    (s.adjustK c o d).blockWork = s.blockWork := by
  have h := congrArg State.blockWork (adjustK_frame s c o d); exact h
@[simp] theorem adjustK_choice (s : State) (c : Chan) (o : Adjustment) (d : Option Int) :
    (s.adjustK c o d).choice = s.choice := by
  have h := congrArg State.choice (adjustK_frame s c o d); exact h
@[simp] theorem adjustK_pending (s : State) (c : Chan) (o : Adjustment) (d : Option Int) :
    (s.adjustK c o d).pending = s.pending := by
  have h := congrArg State.pending (adjustK_frame s c o d); exact h

/-- A check's release of its channel changes the range controller and the unit. -/
theorem releaseChannel_frame (s : State) (c : Chan) :
    (s.releaseChannel c) =
      { s with
        range := (s.releaseChannel c).range, unit := (s.releaseChannel c).unit } := by
  unfold State.releaseChannel
  all_goals (apply State.ext_fields <;> first | rfl | simp)

@[simp] theorem releaseChannel_port (s : State) (c : Chan) :
    (s.releaseChannel c).port = s.port := by
  have h := congrArg State.port (releaseChannel_frame s c); exact h
@[simp] theorem releaseChannel_clock (s : State) (c : Chan) :
    (s.releaseChannel c).clock = s.clock := by
  have h := congrArg State.clock (releaseChannel_frame s c); exact h
@[simp] theorem releaseChannel_store (s : State) (c : Chan) :
    (s.releaseChannel c).store = s.store := by
  have h := congrArg State.store (releaseChannel_frame s c); exact h
@[simp] theorem releaseChannel_acc (s : State) (c : Chan) :
    (s.releaseChannel c).acc = s.acc := by
  have h := congrArg State.acc (releaseChannel_frame s c); exact h
@[simp] theorem releaseChannel_interval (s : State) (c : Chan) :
    (s.releaseChannel c).interval = s.interval := by
  have h := congrArg State.interval (releaseChannel_frame s c); exact h
@[simp] theorem releaseChannel_fifo (s : State) (c : Chan) :
    (s.releaseChannel c).fifo = s.fifo := by
  have h := congrArg State.fifo (releaseChannel_frame s c); exact h
@[simp] theorem releaseChannel_recordsLost (s : State) (c : Chan) :
    (s.releaseChannel c).recordsLost = s.recordsLost := by
  have h := congrArg State.recordsLost (releaseChannel_frame s c); exact h
@[simp] theorem releaseChannel_monitor (s : State) (c : Chan) :
    (s.releaseChannel c).monitor = s.monitor := by
  have h := congrArg State.monitor (releaseChannel_frame s c); exact h
@[simp] theorem releaseChannel_nextEpisode (s : State) (c : Chan) :
    (s.releaseChannel c).nextEpisode = s.nextEpisode := by
  have h := congrArg State.nextEpisode (releaseChannel_frame s c); exact h
@[simp] theorem releaseChannel_alert (s : State) (c : Chan) :
    (s.releaseChannel c).alert = s.alert := by
  have h := congrArg State.alert (releaseChannel_frame s c); exact h
@[simp] theorem releaseChannel_capture (s : State) (c : Chan) :
    (s.releaseChannel c).capture = s.capture := by
  have h := congrArg State.capture (releaseChannel_frame s c); exact h
@[simp] theorem releaseChannel_memory (s : State) (c : Chan) :
    (s.releaseChannel c).memory = s.memory := by
  have h := congrArg State.memory (releaseChannel_frame s c); exact h
@[simp] theorem releaseChannel_check (s : State) (c : Chan) :
    (s.releaseChannel c).check = s.check := by
  have h := congrArg State.check (releaseChannel_frame s c); exact h
@[simp] theorem releaseChannel_report (s : State) (c : Chan) :
    (s.releaseChannel c).report = s.report := by
  have h := congrArg State.report (releaseChannel_frame s c); exact h
@[simp] theorem releaseChannel_link (s : State) (c : Chan) :
    (s.releaseChannel c).link = s.link := by
  have h := congrArg State.link (releaseChannel_frame s c); exact h
@[simp] theorem releaseChannel_handed (s : State) (c : Chan) :
    (s.releaseChannel c).handed = s.handed := by
  have h := congrArg State.handed (releaseChannel_frame s c); exact h
@[simp] theorem releaseChannel_image (s : State) (c : Chan) :
    (s.releaseChannel c).image = s.image := by
  have h := congrArg State.image (releaseChannel_frame s c); exact h
@[simp] theorem releaseChannel_blockWork (s : State) (c : Chan) :
    (s.releaseChannel c).blockWork = s.blockWork := by
  have h := congrArg State.blockWork (releaseChannel_frame s c); exact h
@[simp] theorem releaseChannel_choice (s : State) (c : Chan) :
    (s.releaseChannel c).choice = s.choice := by
  have h := congrArg State.choice (releaseChannel_frame s c); exact h
@[simp] theorem releaseChannel_pending (s : State) (c : Chan) :
    (s.releaseChannel c).pending = s.pending := by
  have h := congrArg State.pending (releaseChannel_frame s c); exact h

/-- The end of a check changes the engine, its channel, the store, and offers an event. -/
theorem endCheck_frame (s : State) (e : Ending) (n : Nat) (t : Stamp) :
    (s.endCheck e n t) =
      { s with
        range := (s.endCheck e n t).range, unit := (s.endCheck e n t).unit, store := (s.endCheck e n t).store
        check := (s.endCheck e n t).check, report := (s.endCheck e n t).report, fifo := (s.endCheck e n t).fifo } := by
  unfold State.endCheck
  (try dsimp only)
  repeat' split
  all_goals (apply State.ext_fields <;> first | rfl | simp)

@[simp] theorem endCheck_port (s : State) (e : Ending) (n : Nat) (t : Stamp) :
    (s.endCheck e n t).port = s.port := by
  have h := congrArg State.port (endCheck_frame s e n t); exact h
@[simp] theorem endCheck_clock (s : State) (e : Ending) (n : Nat) (t : Stamp) :
    (s.endCheck e n t).clock = s.clock := by
  have h := congrArg State.clock (endCheck_frame s e n t); exact h
@[simp] theorem endCheck_acc (s : State) (e : Ending) (n : Nat) (t : Stamp) :
    (s.endCheck e n t).acc = s.acc := by
  have h := congrArg State.acc (endCheck_frame s e n t); exact h
@[simp] theorem endCheck_interval (s : State) (e : Ending) (n : Nat) (t : Stamp) :
    (s.endCheck e n t).interval = s.interval := by
  have h := congrArg State.interval (endCheck_frame s e n t); exact h
@[simp] theorem endCheck_recordsLost (s : State) (e : Ending) (n : Nat) (t : Stamp) :
    (s.endCheck e n t).recordsLost = s.recordsLost := by
  have h := congrArg State.recordsLost (endCheck_frame s e n t); exact h
@[simp] theorem endCheck_monitor (s : State) (e : Ending) (n : Nat) (t : Stamp) :
    (s.endCheck e n t).monitor = s.monitor := by
  have h := congrArg State.monitor (endCheck_frame s e n t); exact h
@[simp] theorem endCheck_nextEpisode (s : State) (e : Ending) (n : Nat) (t : Stamp) :
    (s.endCheck e n t).nextEpisode = s.nextEpisode := by
  have h := congrArg State.nextEpisode (endCheck_frame s e n t); exact h
@[simp] theorem endCheck_alert (s : State) (e : Ending) (n : Nat) (t : Stamp) :
    (s.endCheck e n t).alert = s.alert := by
  have h := congrArg State.alert (endCheck_frame s e n t); exact h
@[simp] theorem endCheck_capture (s : State) (e : Ending) (n : Nat) (t : Stamp) :
    (s.endCheck e n t).capture = s.capture := by
  have h := congrArg State.capture (endCheck_frame s e n t); exact h
@[simp] theorem endCheck_memory (s : State) (e : Ending) (n : Nat) (t : Stamp) :
    (s.endCheck e n t).memory = s.memory := by
  have h := congrArg State.memory (endCheck_frame s e n t); exact h
@[simp] theorem endCheck_link (s : State) (e : Ending) (n : Nat) (t : Stamp) :
    (s.endCheck e n t).link = s.link := by
  have h := congrArg State.link (endCheck_frame s e n t); exact h
@[simp] theorem endCheck_handed (s : State) (e : Ending) (n : Nat) (t : Stamp) :
    (s.endCheck e n t).handed = s.handed := by
  have h := congrArg State.handed (endCheck_frame s e n t); exact h
@[simp] theorem endCheck_image (s : State) (e : Ending) (n : Nat) (t : Stamp) :
    (s.endCheck e n t).image = s.image := by
  have h := congrArg State.image (endCheck_frame s e n t); exact h
@[simp] theorem endCheck_blockWork (s : State) (e : Ending) (n : Nat) (t : Stamp) :
    (s.endCheck e n t).blockWork = s.blockWork := by
  have h := congrArg State.blockWork (endCheck_frame s e n t); exact h
@[simp] theorem endCheck_choice (s : State) (e : Ending) (n : Nat) (t : Stamp) :
    (s.endCheck e n t).choice = s.choice := by
  have h := congrArg State.choice (endCheck_frame s e n t); exact h
@[simp] theorem endCheck_pending (s : State) (e : Ending) (n : Nat) (t : Stamp) :
    (s.endCheck e n t).pending = s.pending := by
  have h := congrArg State.pending (endCheck_frame s e n t); exact h

/-- A check cut short changes what its end changes. -/
theorem cutCheck_frame (s : State) (e : CheckEnd) (t : Stamp) :
    (s.cutCheck e t) =
      { s with
        range := (s.cutCheck e t).range, unit := (s.cutCheck e t).unit, store := (s.cutCheck e t).store
        check := (s.cutCheck e t).check, report := (s.cutCheck e t).report, fifo := (s.cutCheck e t).fifo } := by
  unfold State.cutCheck
  all_goals (apply State.ext_fields <;> first | rfl | simp)

@[simp] theorem cutCheck_port (s : State) (e : CheckEnd) (t : Stamp) :
    (s.cutCheck e t).port = s.port := by
  have h := congrArg State.port (cutCheck_frame s e t); exact h
@[simp] theorem cutCheck_clock (s : State) (e : CheckEnd) (t : Stamp) :
    (s.cutCheck e t).clock = s.clock := by
  have h := congrArg State.clock (cutCheck_frame s e t); exact h
@[simp] theorem cutCheck_acc (s : State) (e : CheckEnd) (t : Stamp) :
    (s.cutCheck e t).acc = s.acc := by
  have h := congrArg State.acc (cutCheck_frame s e t); exact h
@[simp] theorem cutCheck_interval (s : State) (e : CheckEnd) (t : Stamp) :
    (s.cutCheck e t).interval = s.interval := by
  have h := congrArg State.interval (cutCheck_frame s e t); exact h
@[simp] theorem cutCheck_recordsLost (s : State) (e : CheckEnd) (t : Stamp) :
    (s.cutCheck e t).recordsLost = s.recordsLost := by
  have h := congrArg State.recordsLost (cutCheck_frame s e t); exact h
@[simp] theorem cutCheck_monitor (s : State) (e : CheckEnd) (t : Stamp) :
    (s.cutCheck e t).monitor = s.monitor := by
  have h := congrArg State.monitor (cutCheck_frame s e t); exact h
@[simp] theorem cutCheck_nextEpisode (s : State) (e : CheckEnd) (t : Stamp) :
    (s.cutCheck e t).nextEpisode = s.nextEpisode := by
  have h := congrArg State.nextEpisode (cutCheck_frame s e t); exact h
@[simp] theorem cutCheck_alert (s : State) (e : CheckEnd) (t : Stamp) :
    (s.cutCheck e t).alert = s.alert := by
  have h := congrArg State.alert (cutCheck_frame s e t); exact h
@[simp] theorem cutCheck_capture (s : State) (e : CheckEnd) (t : Stamp) :
    (s.cutCheck e t).capture = s.capture := by
  have h := congrArg State.capture (cutCheck_frame s e t); exact h
@[simp] theorem cutCheck_memory (s : State) (e : CheckEnd) (t : Stamp) :
    (s.cutCheck e t).memory = s.memory := by
  have h := congrArg State.memory (cutCheck_frame s e t); exact h
@[simp] theorem cutCheck_link (s : State) (e : CheckEnd) (t : Stamp) :
    (s.cutCheck e t).link = s.link := by
  have h := congrArg State.link (cutCheck_frame s e t); exact h
@[simp] theorem cutCheck_handed (s : State) (e : CheckEnd) (t : Stamp) :
    (s.cutCheck e t).handed = s.handed := by
  have h := congrArg State.handed (cutCheck_frame s e t); exact h
@[simp] theorem cutCheck_image (s : State) (e : CheckEnd) (t : Stamp) :
    (s.cutCheck e t).image = s.image := by
  have h := congrArg State.image (cutCheck_frame s e t); exact h
@[simp] theorem cutCheck_blockWork (s : State) (e : CheckEnd) (t : Stamp) :
    (s.cutCheck e t).blockWork = s.blockWork := by
  have h := congrArg State.blockWork (cutCheck_frame s e t); exact h
@[simp] theorem cutCheck_choice (s : State) (e : CheckEnd) (t : Stamp) :
    (s.cutCheck e t).choice = s.choice := by
  have h := congrArg State.choice (cutCheck_frame s e t); exact h
@[simp] theorem cutCheck_pending (s : State) (e : CheckEnd) (t : Stamp) :
    (s.cutCheck e t).pending = s.pending := by
  have h := congrArg State.pending (cutCheck_frame s e t); exact h

/-- A result changes what a check's end changes. -/
theorem finishCheck_frame (s : State) (p : CheckParams) (n m : Nat) (t : Stamp) :
    (s.finishCheck p n m t) =
      { s with
        range := (s.finishCheck p n m t).range, unit := (s.finishCheck p n m t).unit
        store := (s.finishCheck p n m t).store, check := (s.finishCheck p n m t).check
        report := (s.finishCheck p n m t).report, fifo := (s.finishCheck p n m t).fifo } := by
  unfold State.finishCheck
  (try dsimp only)
  all_goals (apply State.ext_fields <;> first | rfl | simp)

@[simp] theorem finishCheck_port (s : State) (p : CheckParams) (n m : Nat) (t : Stamp) :
    (s.finishCheck p n m t).port = s.port := by
  have h := congrArg State.port (finishCheck_frame s p n m t); exact h
@[simp] theorem finishCheck_clock (s : State) (p : CheckParams) (n m : Nat) (t : Stamp) :
    (s.finishCheck p n m t).clock = s.clock := by
  have h := congrArg State.clock (finishCheck_frame s p n m t); exact h
@[simp] theorem finishCheck_acc (s : State) (p : CheckParams) (n m : Nat) (t : Stamp) :
    (s.finishCheck p n m t).acc = s.acc := by
  have h := congrArg State.acc (finishCheck_frame s p n m t); exact h
@[simp] theorem finishCheck_interval (s : State) (p : CheckParams) (n m : Nat) (t : Stamp) :
    (s.finishCheck p n m t).interval = s.interval := by
  have h := congrArg State.interval (finishCheck_frame s p n m t); exact h
@[simp] theorem finishCheck_recordsLost (s : State) (p : CheckParams) (n m : Nat) (t : Stamp) :
    (s.finishCheck p n m t).recordsLost = s.recordsLost := by
  have h := congrArg State.recordsLost (finishCheck_frame s p n m t); exact h
@[simp] theorem finishCheck_monitor (s : State) (p : CheckParams) (n m : Nat) (t : Stamp) :
    (s.finishCheck p n m t).monitor = s.monitor := by
  have h := congrArg State.monitor (finishCheck_frame s p n m t); exact h
@[simp] theorem finishCheck_nextEpisode (s : State) (p : CheckParams) (n m : Nat) (t : Stamp) :
    (s.finishCheck p n m t).nextEpisode = s.nextEpisode := by
  have h := congrArg State.nextEpisode (finishCheck_frame s p n m t); exact h
@[simp] theorem finishCheck_alert (s : State) (p : CheckParams) (n m : Nat) (t : Stamp) :
    (s.finishCheck p n m t).alert = s.alert := by
  have h := congrArg State.alert (finishCheck_frame s p n m t); exact h
@[simp] theorem finishCheck_capture (s : State) (p : CheckParams) (n m : Nat) (t : Stamp) :
    (s.finishCheck p n m t).capture = s.capture := by
  have h := congrArg State.capture (finishCheck_frame s p n m t); exact h
@[simp] theorem finishCheck_memory (s : State) (p : CheckParams) (n m : Nat) (t : Stamp) :
    (s.finishCheck p n m t).memory = s.memory := by
  have h := congrArg State.memory (finishCheck_frame s p n m t); exact h
@[simp] theorem finishCheck_link (s : State) (p : CheckParams) (n m : Nat) (t : Stamp) :
    (s.finishCheck p n m t).link = s.link := by
  have h := congrArg State.link (finishCheck_frame s p n m t); exact h
@[simp] theorem finishCheck_handed (s : State) (p : CheckParams) (n m : Nat) (t : Stamp) :
    (s.finishCheck p n m t).handed = s.handed := by
  have h := congrArg State.handed (finishCheck_frame s p n m t); exact h
@[simp] theorem finishCheck_image (s : State) (p : CheckParams) (n m : Nat) (t : Stamp) :
    (s.finishCheck p n m t).image = s.image := by
  have h := congrArg State.image (finishCheck_frame s p n m t); exact h
@[simp] theorem finishCheck_blockWork (s : State) (p : CheckParams) (n m : Nat) (t : Stamp) :
    (s.finishCheck p n m t).blockWork = s.blockWork := by
  have h := congrArg State.blockWork (finishCheck_frame s p n m t); exact h
@[simp] theorem finishCheck_choice (s : State) (p : CheckParams) (n m : Nat) (t : Stamp) :
    (s.finishCheck p n m t).choice = s.choice := by
  have h := congrArg State.choice (finishCheck_frame s p n m t); exact h
@[simp] theorem finishCheck_pending (s : State) (p : CheckParams) (n m : Nat) (t : Stamp) :
    (s.finishCheck p n m t).pending = s.pending := by
  have h := congrArg State.pending (finishCheck_frame s p n m t); exact h

/-- The engine's block work changes what a check's end changes. -/
theorem engineStep_frame (s : State) :
    (s.engineStep) =
      { s with
        range := (s.engineStep).range, unit := (s.engineStep).unit, store := (s.engineStep).store
        check := (s.engineStep).check, report := (s.engineStep).report, fifo := (s.engineStep).fifo } := by
  unfold State.engineStep
  (try dsimp only)
  repeat' split
  all_goals (apply State.ext_fields <;> first | rfl | simp)

@[simp] theorem engineStep_port (s : State) :
    (s.engineStep).port = s.port := by
  have h := congrArg State.port (engineStep_frame s); exact h
@[simp] theorem engineStep_clock (s : State) :
    (s.engineStep).clock = s.clock := by
  have h := congrArg State.clock (engineStep_frame s); exact h
@[simp] theorem engineStep_acc (s : State) :
    (s.engineStep).acc = s.acc := by
  have h := congrArg State.acc (engineStep_frame s); exact h
@[simp] theorem engineStep_interval (s : State) :
    (s.engineStep).interval = s.interval := by
  have h := congrArg State.interval (engineStep_frame s); exact h
@[simp] theorem engineStep_recordsLost (s : State) :
    (s.engineStep).recordsLost = s.recordsLost := by
  have h := congrArg State.recordsLost (engineStep_frame s); exact h
@[simp] theorem engineStep_monitor (s : State) :
    (s.engineStep).monitor = s.monitor := by
  have h := congrArg State.monitor (engineStep_frame s); exact h
@[simp] theorem engineStep_nextEpisode (s : State) :
    (s.engineStep).nextEpisode = s.nextEpisode := by
  have h := congrArg State.nextEpisode (engineStep_frame s); exact h
@[simp] theorem engineStep_alert (s : State) :
    (s.engineStep).alert = s.alert := by
  have h := congrArg State.alert (engineStep_frame s); exact h
@[simp] theorem engineStep_capture (s : State) :
    (s.engineStep).capture = s.capture := by
  have h := congrArg State.capture (engineStep_frame s); exact h
@[simp] theorem engineStep_memory (s : State) :
    (s.engineStep).memory = s.memory := by
  have h := congrArg State.memory (engineStep_frame s); exact h
@[simp] theorem engineStep_link (s : State) :
    (s.engineStep).link = s.link := by
  have h := congrArg State.link (engineStep_frame s); exact h
@[simp] theorem engineStep_handed (s : State) :
    (s.engineStep).handed = s.handed := by
  have h := congrArg State.handed (engineStep_frame s); exact h
@[simp] theorem engineStep_image (s : State) :
    (s.engineStep).image = s.image := by
  have h := congrArg State.image (engineStep_frame s); exact h
@[simp] theorem engineStep_blockWork (s : State) :
    (s.engineStep).blockWork = s.blockWork := by
  have h := congrArg State.blockWork (engineStep_frame s); exact h
@[simp] theorem engineStep_choice (s : State) :
    (s.engineStep).choice = s.choice := by
  have h := congrArg State.choice (engineStep_frame s); exact h
@[simp] theorem engineStep_pending (s : State) :
    (s.engineStep).pending = s.pending := by
  have h := congrArg State.pending (engineStep_frame s); exact h

/-- The beginning of a check changes the engine, the mark of the block, its range controller, and closes an episode. -/
theorem beginCheck_frame (s : State) (p : CheckParams) :
    (s.beginCheck p) =
      { s with
        check := (s.beginCheck p).check, acc := (s.beginCheck p).acc, range := (s.beginCheck p).range
        monitor := (s.beginCheck p).monitor, capture := (s.beginCheck p).capture
        report := (s.beginCheck p).report, fifo := (s.beginCheck p).fifo } := by
  unfold State.beginCheck
  (try dsimp only)
  all_goals (apply State.ext_fields <;> first | rfl | simp)

@[simp] theorem beginCheck_port (s : State) (p : CheckParams) :
    (s.beginCheck p).port = s.port := by
  have h := congrArg State.port (beginCheck_frame s p); exact h
@[simp] theorem beginCheck_unit (s : State) (p : CheckParams) :
    (s.beginCheck p).unit = s.unit := by
  have h := congrArg State.unit (beginCheck_frame s p); exact h
@[simp] theorem beginCheck_clock (s : State) (p : CheckParams) :
    (s.beginCheck p).clock = s.clock := by
  have h := congrArg State.clock (beginCheck_frame s p); exact h
@[simp] theorem beginCheck_store (s : State) (p : CheckParams) :
    (s.beginCheck p).store = s.store := by
  have h := congrArg State.store (beginCheck_frame s p); exact h
@[simp] theorem beginCheck_interval (s : State) (p : CheckParams) :
    (s.beginCheck p).interval = s.interval := by
  have h := congrArg State.interval (beginCheck_frame s p); exact h
@[simp] theorem beginCheck_recordsLost (s : State) (p : CheckParams) :
    (s.beginCheck p).recordsLost = s.recordsLost := by
  have h := congrArg State.recordsLost (beginCheck_frame s p); exact h
@[simp] theorem beginCheck_nextEpisode (s : State) (p : CheckParams) :
    (s.beginCheck p).nextEpisode = s.nextEpisode := by
  have h := congrArg State.nextEpisode (beginCheck_frame s p); exact h
@[simp] theorem beginCheck_alert (s : State) (p : CheckParams) :
    (s.beginCheck p).alert = s.alert := by
  have h := congrArg State.alert (beginCheck_frame s p); exact h
@[simp] theorem beginCheck_memory (s : State) (p : CheckParams) :
    (s.beginCheck p).memory = s.memory := by
  have h := congrArg State.memory (beginCheck_frame s p); exact h
@[simp] theorem beginCheck_link (s : State) (p : CheckParams) :
    (s.beginCheck p).link = s.link := by
  have h := congrArg State.link (beginCheck_frame s p); exact h
@[simp] theorem beginCheck_handed (s : State) (p : CheckParams) :
    (s.beginCheck p).handed = s.handed := by
  have h := congrArg State.handed (beginCheck_frame s p); exact h
@[simp] theorem beginCheck_image (s : State) (p : CheckParams) :
    (s.beginCheck p).image = s.image := by
  have h := congrArg State.image (beginCheck_frame s p); exact h
@[simp] theorem beginCheck_blockWork (s : State) (p : CheckParams) :
    (s.beginCheck p).blockWork = s.blockWork := by
  have h := congrArg State.blockWork (beginCheck_frame s p); exact h
@[simp] theorem beginCheck_choice (s : State) (p : CheckParams) :
    (s.beginCheck p).choice = s.choice := by
  have h := congrArg State.choice (beginCheck_frame s p); exact h
@[simp] theorem beginCheck_pending (s : State) (p : CheckParams) :
    (s.beginCheck p).pending = s.pending := by
  have h := congrArg State.pending (beginCheck_frame s p); exact h

/-- A commit's part in the range controllers. -/
theorem commitRanges_frame (s : State) (o n : Settings) :
    (s.commitRanges o n) =
      { s with
        range := (s.commitRanges o n).range } := by
  unfold State.commitRanges
  (try dsimp only)

@[simp] theorem commitRanges_port (s : State) (o n : Settings) :
    (s.commitRanges o n).port = s.port := by
  have h := congrArg State.port (commitRanges_frame s o n); exact h
@[simp] theorem commitRanges_unit (s : State) (o n : Settings) :
    (s.commitRanges o n).unit = s.unit := by
  have h := congrArg State.unit (commitRanges_frame s o n); exact h
@[simp] theorem commitRanges_clock (s : State) (o n : Settings) :
    (s.commitRanges o n).clock = s.clock := by
  have h := congrArg State.clock (commitRanges_frame s o n); exact h
@[simp] theorem commitRanges_store (s : State) (o n : Settings) :
    (s.commitRanges o n).store = s.store := by
  have h := congrArg State.store (commitRanges_frame s o n); exact h
@[simp] theorem commitRanges_acc (s : State) (o n : Settings) :
    (s.commitRanges o n).acc = s.acc := by
  have h := congrArg State.acc (commitRanges_frame s o n); exact h
@[simp] theorem commitRanges_interval (s : State) (o n : Settings) :
    (s.commitRanges o n).interval = s.interval := by
  have h := congrArg State.interval (commitRanges_frame s o n); exact h
@[simp] theorem commitRanges_fifo (s : State) (o n : Settings) :
    (s.commitRanges o n).fifo = s.fifo := by
  have h := congrArg State.fifo (commitRanges_frame s o n); exact h
@[simp] theorem commitRanges_recordsLost (s : State) (o n : Settings) :
    (s.commitRanges o n).recordsLost = s.recordsLost := by
  have h := congrArg State.recordsLost (commitRanges_frame s o n); exact h
@[simp] theorem commitRanges_monitor (s : State) (o n : Settings) :
    (s.commitRanges o n).monitor = s.monitor := by
  have h := congrArg State.monitor (commitRanges_frame s o n); exact h
@[simp] theorem commitRanges_nextEpisode (s : State) (o n : Settings) :
    (s.commitRanges o n).nextEpisode = s.nextEpisode := by
  have h := congrArg State.nextEpisode (commitRanges_frame s o n); exact h
@[simp] theorem commitRanges_alert (s : State) (o n : Settings) :
    (s.commitRanges o n).alert = s.alert := by
  have h := congrArg State.alert (commitRanges_frame s o n); exact h
@[simp] theorem commitRanges_capture (s : State) (o n : Settings) :
    (s.commitRanges o n).capture = s.capture := by
  have h := congrArg State.capture (commitRanges_frame s o n); exact h
@[simp] theorem commitRanges_memory (s : State) (o n : Settings) :
    (s.commitRanges o n).memory = s.memory := by
  have h := congrArg State.memory (commitRanges_frame s o n); exact h
@[simp] theorem commitRanges_check (s : State) (o n : Settings) :
    (s.commitRanges o n).check = s.check := by
  have h := congrArg State.check (commitRanges_frame s o n); exact h
@[simp] theorem commitRanges_report (s : State) (o n : Settings) :
    (s.commitRanges o n).report = s.report := by
  have h := congrArg State.report (commitRanges_frame s o n); exact h
@[simp] theorem commitRanges_link (s : State) (o n : Settings) :
    (s.commitRanges o n).link = s.link := by
  have h := congrArg State.link (commitRanges_frame s o n); exact h
@[simp] theorem commitRanges_handed (s : State) (o n : Settings) :
    (s.commitRanges o n).handed = s.handed := by
  have h := congrArg State.handed (commitRanges_frame s o n); exact h
@[simp] theorem commitRanges_image (s : State) (o n : Settings) :
    (s.commitRanges o n).image = s.image := by
  have h := congrArg State.image (commitRanges_frame s o n); exact h
@[simp] theorem commitRanges_blockWork (s : State) (o n : Settings) :
    (s.commitRanges o n).blockWork = s.blockWork := by
  have h := congrArg State.blockWork (commitRanges_frame s o n); exact h
@[simp] theorem commitRanges_choice (s : State) (o n : Settings) :
    (s.commitRanges o n).choice = s.choice := by
  have h := congrArg State.choice (commitRanges_frame s o n); exact h
@[simp] theorem commitRanges_pending (s : State) (o n : Settings) :
    (s.commitRanges o n).pending = s.pending := by
  have h := congrArg State.pending (commitRanges_frame s o n); exact h

/-- A commit's part in the units. -/
theorem commitUnits_frame (s : State) (o n : Settings) :
    (s.commitUnits o n) =
      { s with
        unit := (s.commitUnits o n).unit } := by
  unfold State.commitUnits
  (try dsimp only)

@[simp] theorem commitUnits_port (s : State) (o n : Settings) :
    (s.commitUnits o n).port = s.port := by
  have h := congrArg State.port (commitUnits_frame s o n); exact h
@[simp] theorem commitUnits_range (s : State) (o n : Settings) :
    (s.commitUnits o n).range = s.range := by
  have h := congrArg State.range (commitUnits_frame s o n); exact h
@[simp] theorem commitUnits_clock (s : State) (o n : Settings) :
    (s.commitUnits o n).clock = s.clock := by
  have h := congrArg State.clock (commitUnits_frame s o n); exact h
@[simp] theorem commitUnits_store (s : State) (o n : Settings) :
    (s.commitUnits o n).store = s.store := by
  have h := congrArg State.store (commitUnits_frame s o n); exact h
@[simp] theorem commitUnits_acc (s : State) (o n : Settings) :
    (s.commitUnits o n).acc = s.acc := by
  have h := congrArg State.acc (commitUnits_frame s o n); exact h
@[simp] theorem commitUnits_interval (s : State) (o n : Settings) :
    (s.commitUnits o n).interval = s.interval := by
  have h := congrArg State.interval (commitUnits_frame s o n); exact h
@[simp] theorem commitUnits_fifo (s : State) (o n : Settings) :
    (s.commitUnits o n).fifo = s.fifo := by
  have h := congrArg State.fifo (commitUnits_frame s o n); exact h
@[simp] theorem commitUnits_recordsLost (s : State) (o n : Settings) :
    (s.commitUnits o n).recordsLost = s.recordsLost := by
  have h := congrArg State.recordsLost (commitUnits_frame s o n); exact h
@[simp] theorem commitUnits_monitor (s : State) (o n : Settings) :
    (s.commitUnits o n).monitor = s.monitor := by
  have h := congrArg State.monitor (commitUnits_frame s o n); exact h
@[simp] theorem commitUnits_nextEpisode (s : State) (o n : Settings) :
    (s.commitUnits o n).nextEpisode = s.nextEpisode := by
  have h := congrArg State.nextEpisode (commitUnits_frame s o n); exact h
@[simp] theorem commitUnits_alert (s : State) (o n : Settings) :
    (s.commitUnits o n).alert = s.alert := by
  have h := congrArg State.alert (commitUnits_frame s o n); exact h
@[simp] theorem commitUnits_capture (s : State) (o n : Settings) :
    (s.commitUnits o n).capture = s.capture := by
  have h := congrArg State.capture (commitUnits_frame s o n); exact h
@[simp] theorem commitUnits_memory (s : State) (o n : Settings) :
    (s.commitUnits o n).memory = s.memory := by
  have h := congrArg State.memory (commitUnits_frame s o n); exact h
@[simp] theorem commitUnits_check (s : State) (o n : Settings) :
    (s.commitUnits o n).check = s.check := by
  have h := congrArg State.check (commitUnits_frame s o n); exact h
@[simp] theorem commitUnits_report (s : State) (o n : Settings) :
    (s.commitUnits o n).report = s.report := by
  have h := congrArg State.report (commitUnits_frame s o n); exact h
@[simp] theorem commitUnits_link (s : State) (o n : Settings) :
    (s.commitUnits o n).link = s.link := by
  have h := congrArg State.link (commitUnits_frame s o n); exact h
@[simp] theorem commitUnits_handed (s : State) (o n : Settings) :
    (s.commitUnits o n).handed = s.handed := by
  have h := congrArg State.handed (commitUnits_frame s o n); exact h
@[simp] theorem commitUnits_image (s : State) (o n : Settings) :
    (s.commitUnits o n).image = s.image := by
  have h := congrArg State.image (commitUnits_frame s o n); exact h
@[simp] theorem commitUnits_blockWork (s : State) (o n : Settings) :
    (s.commitUnits o n).blockWork = s.blockWork := by
  have h := congrArg State.blockWork (commitUnits_frame s o n); exact h
@[simp] theorem commitUnits_choice (s : State) (o n : Settings) :
    (s.commitUnits o n).choice = s.choice := by
  have h := congrArg State.choice (commitUnits_frame s o n); exact h
@[simp] theorem commitUnits_pending (s : State) (o n : Settings) :
    (s.commitUnits o n).pending = s.pending := by
  have h := congrArg State.pending (commitUnits_frame s o n); exact h

/-- A commit's part in the guard. -/
theorem commitGuard_frame (s : State) (o n : Settings) :
    (s.commitGuard o n) =
      { s with
        acc := (s.commitGuard o n).acc } := by
  unfold State.commitGuard
  (try dsimp only)
  repeat' split
  all_goals (apply State.ext_fields <;> first | rfl | simp)

@[simp] theorem commitGuard_port (s : State) (o n : Settings) :
    (s.commitGuard o n).port = s.port := by
  have h := congrArg State.port (commitGuard_frame s o n); exact h
@[simp] theorem commitGuard_range (s : State) (o n : Settings) :
    (s.commitGuard o n).range = s.range := by
  have h := congrArg State.range (commitGuard_frame s o n); exact h
@[simp] theorem commitGuard_unit (s : State) (o n : Settings) :
    (s.commitGuard o n).unit = s.unit := by
  have h := congrArg State.unit (commitGuard_frame s o n); exact h
@[simp] theorem commitGuard_clock (s : State) (o n : Settings) :
    (s.commitGuard o n).clock = s.clock := by
  have h := congrArg State.clock (commitGuard_frame s o n); exact h
@[simp] theorem commitGuard_store (s : State) (o n : Settings) :
    (s.commitGuard o n).store = s.store := by
  have h := congrArg State.store (commitGuard_frame s o n); exact h
@[simp] theorem commitGuard_interval (s : State) (o n : Settings) :
    (s.commitGuard o n).interval = s.interval := by
  have h := congrArg State.interval (commitGuard_frame s o n); exact h
@[simp] theorem commitGuard_fifo (s : State) (o n : Settings) :
    (s.commitGuard o n).fifo = s.fifo := by
  have h := congrArg State.fifo (commitGuard_frame s o n); exact h
@[simp] theorem commitGuard_recordsLost (s : State) (o n : Settings) :
    (s.commitGuard o n).recordsLost = s.recordsLost := by
  have h := congrArg State.recordsLost (commitGuard_frame s o n); exact h
@[simp] theorem commitGuard_monitor (s : State) (o n : Settings) :
    (s.commitGuard o n).monitor = s.monitor := by
  have h := congrArg State.monitor (commitGuard_frame s o n); exact h
@[simp] theorem commitGuard_nextEpisode (s : State) (o n : Settings) :
    (s.commitGuard o n).nextEpisode = s.nextEpisode := by
  have h := congrArg State.nextEpisode (commitGuard_frame s o n); exact h
@[simp] theorem commitGuard_alert (s : State) (o n : Settings) :
    (s.commitGuard o n).alert = s.alert := by
  have h := congrArg State.alert (commitGuard_frame s o n); exact h
@[simp] theorem commitGuard_capture (s : State) (o n : Settings) :
    (s.commitGuard o n).capture = s.capture := by
  have h := congrArg State.capture (commitGuard_frame s o n); exact h
@[simp] theorem commitGuard_memory (s : State) (o n : Settings) :
    (s.commitGuard o n).memory = s.memory := by
  have h := congrArg State.memory (commitGuard_frame s o n); exact h
@[simp] theorem commitGuard_check (s : State) (o n : Settings) :
    (s.commitGuard o n).check = s.check := by
  have h := congrArg State.check (commitGuard_frame s o n); exact h
@[simp] theorem commitGuard_report (s : State) (o n : Settings) :
    (s.commitGuard o n).report = s.report := by
  have h := congrArg State.report (commitGuard_frame s o n); exact h
@[simp] theorem commitGuard_link (s : State) (o n : Settings) :
    (s.commitGuard o n).link = s.link := by
  have h := congrArg State.link (commitGuard_frame s o n); exact h
@[simp] theorem commitGuard_handed (s : State) (o n : Settings) :
    (s.commitGuard o n).handed = s.handed := by
  have h := congrArg State.handed (commitGuard_frame s o n); exact h
@[simp] theorem commitGuard_image (s : State) (o n : Settings) :
    (s.commitGuard o n).image = s.image := by
  have h := congrArg State.image (commitGuard_frame s o n); exact h
@[simp] theorem commitGuard_blockWork (s : State) (o n : Settings) :
    (s.commitGuard o n).blockWork = s.blockWork := by
  have h := congrArg State.blockWork (commitGuard_frame s o n); exact h
@[simp] theorem commitGuard_choice (s : State) (o n : Settings) :
    (s.commitGuard o n).choice = s.choice := by
  have h := congrArg State.choice (commitGuard_frame s o n); exact h
@[simp] theorem commitGuard_pending (s : State) (o n : Settings) :
    (s.commitGuard o n).pending = s.pending := by
  have h := congrArg State.pending (commitGuard_frame s o n); exact h

/-- A commit's part in the check engine. -/
theorem commitCheck_frame (s : State) (o n : Settings) (t : Stamp) :
    (s.commitCheck o n t) =
      { s with
        range := (s.commitCheck o n t).range, unit := (s.commitCheck o n t).unit
        store := (s.commitCheck o n t).store, check := (s.commitCheck o n t).check
        report := (s.commitCheck o n t).report, fifo := (s.commitCheck o n t).fifo } := by
  unfold State.commitCheck
  repeat' split
  all_goals (apply State.ext_fields <;> first | rfl | simp)

@[simp] theorem commitCheck_port (s : State) (o n : Settings) (t : Stamp) :
    (s.commitCheck o n t).port = s.port := by
  have h := congrArg State.port (commitCheck_frame s o n t); exact h
@[simp] theorem commitCheck_clock (s : State) (o n : Settings) (t : Stamp) :
    (s.commitCheck o n t).clock = s.clock := by
  have h := congrArg State.clock (commitCheck_frame s o n t); exact h
@[simp] theorem commitCheck_acc (s : State) (o n : Settings) (t : Stamp) :
    (s.commitCheck o n t).acc = s.acc := by
  have h := congrArg State.acc (commitCheck_frame s o n t); exact h
@[simp] theorem commitCheck_interval (s : State) (o n : Settings) (t : Stamp) :
    (s.commitCheck o n t).interval = s.interval := by
  have h := congrArg State.interval (commitCheck_frame s o n t); exact h
@[simp] theorem commitCheck_recordsLost (s : State) (o n : Settings) (t : Stamp) :
    (s.commitCheck o n t).recordsLost = s.recordsLost := by
  have h := congrArg State.recordsLost (commitCheck_frame s o n t); exact h
@[simp] theorem commitCheck_monitor (s : State) (o n : Settings) (t : Stamp) :
    (s.commitCheck o n t).monitor = s.monitor := by
  have h := congrArg State.monitor (commitCheck_frame s o n t); exact h
@[simp] theorem commitCheck_nextEpisode (s : State) (o n : Settings) (t : Stamp) :
    (s.commitCheck o n t).nextEpisode = s.nextEpisode := by
  have h := congrArg State.nextEpisode (commitCheck_frame s o n t); exact h
@[simp] theorem commitCheck_alert (s : State) (o n : Settings) (t : Stamp) :
    (s.commitCheck o n t).alert = s.alert := by
  have h := congrArg State.alert (commitCheck_frame s o n t); exact h
@[simp] theorem commitCheck_capture (s : State) (o n : Settings) (t : Stamp) :
    (s.commitCheck o n t).capture = s.capture := by
  have h := congrArg State.capture (commitCheck_frame s o n t); exact h
@[simp] theorem commitCheck_memory (s : State) (o n : Settings) (t : Stamp) :
    (s.commitCheck o n t).memory = s.memory := by
  have h := congrArg State.memory (commitCheck_frame s o n t); exact h
@[simp] theorem commitCheck_link (s : State) (o n : Settings) (t : Stamp) :
    (s.commitCheck o n t).link = s.link := by
  have h := congrArg State.link (commitCheck_frame s o n t); exact h
@[simp] theorem commitCheck_handed (s : State) (o n : Settings) (t : Stamp) :
    (s.commitCheck o n t).handed = s.handed := by
  have h := congrArg State.handed (commitCheck_frame s o n t); exact h
@[simp] theorem commitCheck_image (s : State) (o n : Settings) (t : Stamp) :
    (s.commitCheck o n t).image = s.image := by
  have h := congrArg State.image (commitCheck_frame s o n t); exact h
@[simp] theorem commitCheck_blockWork (s : State) (o n : Settings) (t : Stamp) :
    (s.commitCheck o n t).blockWork = s.blockWork := by
  have h := congrArg State.blockWork (commitCheck_frame s o n t); exact h
@[simp] theorem commitCheck_choice (s : State) (o n : Settings) (t : Stamp) :
    (s.commitCheck o n t).choice = s.choice := by
  have h := congrArg State.choice (commitCheck_frame s o n t); exact h
@[simp] theorem commitCheck_pending (s : State) (o n : Settings) (t : Stamp) :
    (s.commitCheck o n t).pending = s.pending := by
  have h := congrArg State.pending (commitCheck_frame s o n t); exact h

/-- A commit changes the store, the range controllers, the units, the guard and a running check. -/
theorem applyCommit_frame (s : State) (b : Bool) (t : Stamp) :
    (s.applyCommit b t) =
      { s with
        store := (s.applyCommit b t).store, range := (s.applyCommit b t).range, unit := (s.applyCommit b t).unit
        acc := (s.applyCommit b t).acc, check := (s.applyCommit b t).check, report := (s.applyCommit b t).report
        fifo := (s.applyCommit b t).fifo } := by
  unfold State.applyCommit
  (try dsimp only)
  all_goals (apply State.ext_fields <;> first | rfl | simp)

@[simp] theorem applyCommit_port (s : State) (b : Bool) (t : Stamp) :
    (s.applyCommit b t).port = s.port := by
  have h := congrArg State.port (applyCommit_frame s b t); exact h
@[simp] theorem applyCommit_clock (s : State) (b : Bool) (t : Stamp) :
    (s.applyCommit b t).clock = s.clock := by
  have h := congrArg State.clock (applyCommit_frame s b t); exact h
@[simp] theorem applyCommit_interval (s : State) (b : Bool) (t : Stamp) :
    (s.applyCommit b t).interval = s.interval := by
  have h := congrArg State.interval (applyCommit_frame s b t); exact h
@[simp] theorem applyCommit_recordsLost (s : State) (b : Bool) (t : Stamp) :
    (s.applyCommit b t).recordsLost = s.recordsLost := by
  have h := congrArg State.recordsLost (applyCommit_frame s b t); exact h
@[simp] theorem applyCommit_monitor (s : State) (b : Bool) (t : Stamp) :
    (s.applyCommit b t).monitor = s.monitor := by
  have h := congrArg State.monitor (applyCommit_frame s b t); exact h
@[simp] theorem applyCommit_nextEpisode (s : State) (b : Bool) (t : Stamp) :
    (s.applyCommit b t).nextEpisode = s.nextEpisode := by
  have h := congrArg State.nextEpisode (applyCommit_frame s b t); exact h
@[simp] theorem applyCommit_alert (s : State) (b : Bool) (t : Stamp) :
    (s.applyCommit b t).alert = s.alert := by
  have h := congrArg State.alert (applyCommit_frame s b t); exact h
@[simp] theorem applyCommit_capture (s : State) (b : Bool) (t : Stamp) :
    (s.applyCommit b t).capture = s.capture := by
  have h := congrArg State.capture (applyCommit_frame s b t); exact h
@[simp] theorem applyCommit_memory (s : State) (b : Bool) (t : Stamp) :
    (s.applyCommit b t).memory = s.memory := by
  have h := congrArg State.memory (applyCommit_frame s b t); exact h
@[simp] theorem applyCommit_link (s : State) (b : Bool) (t : Stamp) :
    (s.applyCommit b t).link = s.link := by
  have h := congrArg State.link (applyCommit_frame s b t); exact h
@[simp] theorem applyCommit_handed (s : State) (b : Bool) (t : Stamp) :
    (s.applyCommit b t).handed = s.handed := by
  have h := congrArg State.handed (applyCommit_frame s b t); exact h
@[simp] theorem applyCommit_image (s : State) (b : Bool) (t : Stamp) :
    (s.applyCommit b t).image = s.image := by
  have h := congrArg State.image (applyCommit_frame s b t); exact h
@[simp] theorem applyCommit_blockWork (s : State) (b : Bool) (t : Stamp) :
    (s.applyCommit b t).blockWork = s.blockWork := by
  have h := congrArg State.blockWork (applyCommit_frame s b t); exact h
@[simp] theorem applyCommit_choice (s : State) (b : Bool) (t : Stamp) :
    (s.applyCommit b t).choice = s.choice := by
  have h := congrArg State.choice (applyCommit_frame s b t); exact h
@[simp] theorem applyCommit_pending (s : State) (b : Bool) (t : Stamp) :
    (s.applyCommit b t).pending = s.pending := by
  have h := congrArg State.pending (applyCommit_frame s b t); exact h

/-- The carried marks are the accumulator's. -/
theorem carryCommit_frame (s : State) (n : Quad Nat) :
    (s.carryCommit n) =
      { s with
        acc := (s.carryCommit n).acc } := by
  unfold State.carryCommit
  (try dsimp only)

@[simp] theorem carryCommit_port (s : State) (n : Quad Nat) :
    (s.carryCommit n).port = s.port := by
  have h := congrArg State.port (carryCommit_frame s n); exact h
@[simp] theorem carryCommit_range (s : State) (n : Quad Nat) :
    (s.carryCommit n).range = s.range := by
  have h := congrArg State.range (carryCommit_frame s n); exact h
@[simp] theorem carryCommit_unit (s : State) (n : Quad Nat) :
    (s.carryCommit n).unit = s.unit := by
  have h := congrArg State.unit (carryCommit_frame s n); exact h
@[simp] theorem carryCommit_clock (s : State) (n : Quad Nat) :
    (s.carryCommit n).clock = s.clock := by
  have h := congrArg State.clock (carryCommit_frame s n); exact h
@[simp] theorem carryCommit_store (s : State) (n : Quad Nat) :
    (s.carryCommit n).store = s.store := by
  have h := congrArg State.store (carryCommit_frame s n); exact h
@[simp] theorem carryCommit_interval (s : State) (n : Quad Nat) :
    (s.carryCommit n).interval = s.interval := by
  have h := congrArg State.interval (carryCommit_frame s n); exact h
@[simp] theorem carryCommit_fifo (s : State) (n : Quad Nat) :
    (s.carryCommit n).fifo = s.fifo := by
  have h := congrArg State.fifo (carryCommit_frame s n); exact h
@[simp] theorem carryCommit_recordsLost (s : State) (n : Quad Nat) :
    (s.carryCommit n).recordsLost = s.recordsLost := by
  have h := congrArg State.recordsLost (carryCommit_frame s n); exact h
@[simp] theorem carryCommit_monitor (s : State) (n : Quad Nat) :
    (s.carryCommit n).monitor = s.monitor := by
  have h := congrArg State.monitor (carryCommit_frame s n); exact h
@[simp] theorem carryCommit_nextEpisode (s : State) (n : Quad Nat) :
    (s.carryCommit n).nextEpisode = s.nextEpisode := by
  have h := congrArg State.nextEpisode (carryCommit_frame s n); exact h
@[simp] theorem carryCommit_alert (s : State) (n : Quad Nat) :
    (s.carryCommit n).alert = s.alert := by
  have h := congrArg State.alert (carryCommit_frame s n); exact h
@[simp] theorem carryCommit_capture (s : State) (n : Quad Nat) :
    (s.carryCommit n).capture = s.capture := by
  have h := congrArg State.capture (carryCommit_frame s n); exact h
@[simp] theorem carryCommit_memory (s : State) (n : Quad Nat) :
    (s.carryCommit n).memory = s.memory := by
  have h := congrArg State.memory (carryCommit_frame s n); exact h
@[simp] theorem carryCommit_check (s : State) (n : Quad Nat) :
    (s.carryCommit n).check = s.check := by
  have h := congrArg State.check (carryCommit_frame s n); exact h
@[simp] theorem carryCommit_report (s : State) (n : Quad Nat) :
    (s.carryCommit n).report = s.report := by
  have h := congrArg State.report (carryCommit_frame s n); exact h
@[simp] theorem carryCommit_link (s : State) (n : Quad Nat) :
    (s.carryCommit n).link = s.link := by
  have h := congrArg State.link (carryCommit_frame s n); exact h
@[simp] theorem carryCommit_handed (s : State) (n : Quad Nat) :
    (s.carryCommit n).handed = s.handed := by
  have h := congrArg State.handed (carryCommit_frame s n); exact h
@[simp] theorem carryCommit_image (s : State) (n : Quad Nat) :
    (s.carryCommit n).image = s.image := by
  have h := congrArg State.image (carryCommit_frame s n); exact h
@[simp] theorem carryCommit_blockWork (s : State) (n : Quad Nat) :
    (s.carryCommit n).blockWork = s.blockWork := by
  have h := congrArg State.blockWork (carryCommit_frame s n); exact h
@[simp] theorem carryCommit_choice (s : State) (n : Quad Nat) :
    (s.carryCommit n).choice = s.choice := by
  have h := congrArg State.choice (carryCommit_frame s n); exact h
@[simp] theorem carryCommit_pending (s : State) (n : Quad Nat) :
    (s.carryCommit n).pending = s.pending := by
  have h := congrArg State.pending (carryCommit_frame s n); exact h

/-- A commit at once changes what a commit changes. -/
theorem commitAtOnce_frame (s : State) (t : Stamp) :
    (s.commitAtOnce t) =
      { s with
        store := (s.commitAtOnce t).store, range := (s.commitAtOnce t).range, unit := (s.commitAtOnce t).unit
        acc := (s.commitAtOnce t).acc, check := (s.commitAtOnce t).check, report := (s.commitAtOnce t).report
        fifo := (s.commitAtOnce t).fifo } := by
  unfold State.commitAtOnce
  (try dsimp only)
  all_goals (apply State.ext_fields <;> first | rfl | simp)

@[simp] theorem commitAtOnce_port (s : State) (t : Stamp) :
    (s.commitAtOnce t).port = s.port := by
  have h := congrArg State.port (commitAtOnce_frame s t); exact h
@[simp] theorem commitAtOnce_clock (s : State) (t : Stamp) :
    (s.commitAtOnce t).clock = s.clock := by
  have h := congrArg State.clock (commitAtOnce_frame s t); exact h
@[simp] theorem commitAtOnce_interval (s : State) (t : Stamp) :
    (s.commitAtOnce t).interval = s.interval := by
  have h := congrArg State.interval (commitAtOnce_frame s t); exact h
@[simp] theorem commitAtOnce_recordsLost (s : State) (t : Stamp) :
    (s.commitAtOnce t).recordsLost = s.recordsLost := by
  have h := congrArg State.recordsLost (commitAtOnce_frame s t); exact h
@[simp] theorem commitAtOnce_monitor (s : State) (t : Stamp) :
    (s.commitAtOnce t).monitor = s.monitor := by
  have h := congrArg State.monitor (commitAtOnce_frame s t); exact h
@[simp] theorem commitAtOnce_nextEpisode (s : State) (t : Stamp) :
    (s.commitAtOnce t).nextEpisode = s.nextEpisode := by
  have h := congrArg State.nextEpisode (commitAtOnce_frame s t); exact h
@[simp] theorem commitAtOnce_alert (s : State) (t : Stamp) :
    (s.commitAtOnce t).alert = s.alert := by
  have h := congrArg State.alert (commitAtOnce_frame s t); exact h
@[simp] theorem commitAtOnce_capture (s : State) (t : Stamp) :
    (s.commitAtOnce t).capture = s.capture := by
  have h := congrArg State.capture (commitAtOnce_frame s t); exact h
@[simp] theorem commitAtOnce_memory (s : State) (t : Stamp) :
    (s.commitAtOnce t).memory = s.memory := by
  have h := congrArg State.memory (commitAtOnce_frame s t); exact h
@[simp] theorem commitAtOnce_link (s : State) (t : Stamp) :
    (s.commitAtOnce t).link = s.link := by
  have h := congrArg State.link (commitAtOnce_frame s t); exact h
@[simp] theorem commitAtOnce_handed (s : State) (t : Stamp) :
    (s.commitAtOnce t).handed = s.handed := by
  have h := congrArg State.handed (commitAtOnce_frame s t); exact h
@[simp] theorem commitAtOnce_image (s : State) (t : Stamp) :
    (s.commitAtOnce t).image = s.image := by
  have h := congrArg State.image (commitAtOnce_frame s t); exact h
@[simp] theorem commitAtOnce_blockWork (s : State) (t : Stamp) :
    (s.commitAtOnce t).blockWork = s.blockWork := by
  have h := congrArg State.blockWork (commitAtOnce_frame s t); exact h
@[simp] theorem commitAtOnce_choice (s : State) (t : Stamp) :
    (s.commitAtOnce t).choice = s.choice := by
  have h := congrArg State.choice (commitAtOnce_frame s t); exact h
@[simp] theorem commitAtOnce_pending (s : State) (t : Stamp) :
    (s.commitAtOnce t).pending = s.pending := by
  have h := congrArg State.pending (commitAtOnce_frame s t); exact h

/-- Classification changes the classes handed and the guard. -/
theorem classifyStep_frame (s : State) :
    (s.classifyStep) =
      { s with
        handed := (s.classifyStep).handed, acc := (s.classifyStep).acc } := by
  unfold State.classifyStep
  (try dsimp only)

@[simp] theorem classifyStep_port (s : State) :
    (s.classifyStep).port = s.port := by
  have h := congrArg State.port (classifyStep_frame s); exact h
@[simp] theorem classifyStep_range (s : State) :
    (s.classifyStep).range = s.range := by
  have h := congrArg State.range (classifyStep_frame s); exact h
@[simp] theorem classifyStep_unit (s : State) :
    (s.classifyStep).unit = s.unit := by
  have h := congrArg State.unit (classifyStep_frame s); exact h
@[simp] theorem classifyStep_clock (s : State) :
    (s.classifyStep).clock = s.clock := by
  have h := congrArg State.clock (classifyStep_frame s); exact h
@[simp] theorem classifyStep_store (s : State) :
    (s.classifyStep).store = s.store := by
  have h := congrArg State.store (classifyStep_frame s); exact h
@[simp] theorem classifyStep_interval (s : State) :
    (s.classifyStep).interval = s.interval := by
  have h := congrArg State.interval (classifyStep_frame s); exact h
@[simp] theorem classifyStep_fifo (s : State) :
    (s.classifyStep).fifo = s.fifo := by
  have h := congrArg State.fifo (classifyStep_frame s); exact h
@[simp] theorem classifyStep_recordsLost (s : State) :
    (s.classifyStep).recordsLost = s.recordsLost := by
  have h := congrArg State.recordsLost (classifyStep_frame s); exact h
@[simp] theorem classifyStep_monitor (s : State) :
    (s.classifyStep).monitor = s.monitor := by
  have h := congrArg State.monitor (classifyStep_frame s); exact h
@[simp] theorem classifyStep_nextEpisode (s : State) :
    (s.classifyStep).nextEpisode = s.nextEpisode := by
  have h := congrArg State.nextEpisode (classifyStep_frame s); exact h
@[simp] theorem classifyStep_alert (s : State) :
    (s.classifyStep).alert = s.alert := by
  have h := congrArg State.alert (classifyStep_frame s); exact h
@[simp] theorem classifyStep_capture (s : State) :
    (s.classifyStep).capture = s.capture := by
  have h := congrArg State.capture (classifyStep_frame s); exact h
@[simp] theorem classifyStep_memory (s : State) :
    (s.classifyStep).memory = s.memory := by
  have h := congrArg State.memory (classifyStep_frame s); exact h
@[simp] theorem classifyStep_check (s : State) :
    (s.classifyStep).check = s.check := by
  have h := congrArg State.check (classifyStep_frame s); exact h
@[simp] theorem classifyStep_report (s : State) :
    (s.classifyStep).report = s.report := by
  have h := congrArg State.report (classifyStep_frame s); exact h
@[simp] theorem classifyStep_link (s : State) :
    (s.classifyStep).link = s.link := by
  have h := congrArg State.link (classifyStep_frame s); exact h
@[simp] theorem classifyStep_image (s : State) :
    (s.classifyStep).image = s.image := by
  have h := congrArg State.image (classifyStep_frame s); exact h
@[simp] theorem classifyStep_blockWork (s : State) :
    (s.classifyStep).blockWork = s.blockWork := by
  have h := congrArg State.blockWork (classifyStep_frame s); exact h
@[simp] theorem classifyStep_choice (s : State) :
    (s.classifyStep).choice = s.choice := by
  have h := congrArg State.choice (classifyStep_frame s); exact h
@[simp] theorem classifyStep_pending (s : State) :
    (s.classifyStep).pending = s.pending := by
  have h := congrArg State.pending (classifyStep_frame s); exact h

/-- Accumulation changes the open interval alone. -/
theorem accumulateStep_frame (s : State) :
    (s.accumulateStep) =
      { s with
        interval := (s.accumulateStep).interval } := by
  unfold State.accumulateStep
  repeat' split
  all_goals (apply State.ext_fields <;> first | rfl | simp)

@[simp] theorem accumulateStep_port (s : State) :
    (s.accumulateStep).port = s.port := by
  have h := congrArg State.port (accumulateStep_frame s); exact h
@[simp] theorem accumulateStep_range (s : State) :
    (s.accumulateStep).range = s.range := by
  have h := congrArg State.range (accumulateStep_frame s); exact h
@[simp] theorem accumulateStep_unit (s : State) :
    (s.accumulateStep).unit = s.unit := by
  have h := congrArg State.unit (accumulateStep_frame s); exact h
@[simp] theorem accumulateStep_clock (s : State) :
    (s.accumulateStep).clock = s.clock := by
  have h := congrArg State.clock (accumulateStep_frame s); exact h
@[simp] theorem accumulateStep_store (s : State) :
    (s.accumulateStep).store = s.store := by
  have h := congrArg State.store (accumulateStep_frame s); exact h
@[simp] theorem accumulateStep_acc (s : State) :
    (s.accumulateStep).acc = s.acc := by
  have h := congrArg State.acc (accumulateStep_frame s); exact h
@[simp] theorem accumulateStep_fifo (s : State) :
    (s.accumulateStep).fifo = s.fifo := by
  have h := congrArg State.fifo (accumulateStep_frame s); exact h
@[simp] theorem accumulateStep_recordsLost (s : State) :
    (s.accumulateStep).recordsLost = s.recordsLost := by
  have h := congrArg State.recordsLost (accumulateStep_frame s); exact h
@[simp] theorem accumulateStep_monitor (s : State) :
    (s.accumulateStep).monitor = s.monitor := by
  have h := congrArg State.monitor (accumulateStep_frame s); exact h
@[simp] theorem accumulateStep_nextEpisode (s : State) :
    (s.accumulateStep).nextEpisode = s.nextEpisode := by
  have h := congrArg State.nextEpisode (accumulateStep_frame s); exact h
@[simp] theorem accumulateStep_alert (s : State) :
    (s.accumulateStep).alert = s.alert := by
  have h := congrArg State.alert (accumulateStep_frame s); exact h
@[simp] theorem accumulateStep_capture (s : State) :
    (s.accumulateStep).capture = s.capture := by
  have h := congrArg State.capture (accumulateStep_frame s); exact h
@[simp] theorem accumulateStep_memory (s : State) :
    (s.accumulateStep).memory = s.memory := by
  have h := congrArg State.memory (accumulateStep_frame s); exact h
@[simp] theorem accumulateStep_check (s : State) :
    (s.accumulateStep).check = s.check := by
  have h := congrArg State.check (accumulateStep_frame s); exact h
@[simp] theorem accumulateStep_report (s : State) :
    (s.accumulateStep).report = s.report := by
  have h := congrArg State.report (accumulateStep_frame s); exact h
@[simp] theorem accumulateStep_link (s : State) :
    (s.accumulateStep).link = s.link := by
  have h := congrArg State.link (accumulateStep_frame s); exact h
@[simp] theorem accumulateStep_handed (s : State) :
    (s.accumulateStep).handed = s.handed := by
  have h := congrArg State.handed (accumulateStep_frame s); exact h
@[simp] theorem accumulateStep_image (s : State) :
    (s.accumulateStep).image = s.image := by
  have h := congrArg State.image (accumulateStep_frame s); exact h
@[simp] theorem accumulateStep_blockWork (s : State) :
    (s.accumulateStep).blockWork = s.blockWork := by
  have h := congrArg State.blockWork (accumulateStep_frame s); exact h
@[simp] theorem accumulateStep_choice (s : State) :
    (s.accumulateStep).choice = s.choice := by
  have h := congrArg State.choice (accumulateStep_frame s); exact h
@[simp] theorem accumulateStep_pending (s : State) :
    (s.accumulateStep).pending = s.pending := by
  have h := congrArg State.pending (accumulateStep_frame s); exact h

/-- A record changes the record FIFO and its count, and may offer an event. -/
theorem recordChannel_frame (s : State) (iv : Interval) (cc : CloseCause) (c : Chan) :
    State.recordChannel iv cc s c =
      { s with
        recordsLost := (State.recordChannel iv cc s c).recordsLost
        report := (State.recordChannel iv cc s c).report, fifo := (State.recordChannel iv cc s c).fifo } := by
  unfold State.recordChannel
  repeat' split
  all_goals (apply State.ext_fields <;> first | rfl | simp)

@[simp] theorem recordChannel_port (s : State) (iv : Interval) (cc : CloseCause) (c : Chan) :
    (State.recordChannel iv cc s c).port = s.port := by
  have h := congrArg State.port (recordChannel_frame s iv cc c); exact h
@[simp] theorem recordChannel_range (s : State) (iv : Interval) (cc : CloseCause) (c : Chan) :
    (State.recordChannel iv cc s c).range = s.range := by
  have h := congrArg State.range (recordChannel_frame s iv cc c); exact h
@[simp] theorem recordChannel_unit (s : State) (iv : Interval) (cc : CloseCause) (c : Chan) :
    (State.recordChannel iv cc s c).unit = s.unit := by
  have h := congrArg State.unit (recordChannel_frame s iv cc c); exact h
@[simp] theorem recordChannel_clock (s : State) (iv : Interval) (cc : CloseCause) (c : Chan) :
    (State.recordChannel iv cc s c).clock = s.clock := by
  have h := congrArg State.clock (recordChannel_frame s iv cc c); exact h
@[simp] theorem recordChannel_store (s : State) (iv : Interval) (cc : CloseCause) (c : Chan) :
    (State.recordChannel iv cc s c).store = s.store := by
  have h := congrArg State.store (recordChannel_frame s iv cc c); exact h
@[simp] theorem recordChannel_acc (s : State) (iv : Interval) (cc : CloseCause) (c : Chan) :
    (State.recordChannel iv cc s c).acc = s.acc := by
  have h := congrArg State.acc (recordChannel_frame s iv cc c); exact h
@[simp] theorem recordChannel_interval (s : State) (iv : Interval) (cc : CloseCause) (c : Chan) :
    (State.recordChannel iv cc s c).interval = s.interval := by
  have h := congrArg State.interval (recordChannel_frame s iv cc c); exact h
@[simp] theorem recordChannel_monitor (s : State) (iv : Interval) (cc : CloseCause) (c : Chan) :
    (State.recordChannel iv cc s c).monitor = s.monitor := by
  have h := congrArg State.monitor (recordChannel_frame s iv cc c); exact h
@[simp] theorem recordChannel_nextEpisode (s : State) (iv : Interval) (cc : CloseCause) (c : Chan) :
    (State.recordChannel iv cc s c).nextEpisode = s.nextEpisode := by
  have h := congrArg State.nextEpisode (recordChannel_frame s iv cc c); exact h
@[simp] theorem recordChannel_alert (s : State) (iv : Interval) (cc : CloseCause) (c : Chan) :
    (State.recordChannel iv cc s c).alert = s.alert := by
  have h := congrArg State.alert (recordChannel_frame s iv cc c); exact h
@[simp] theorem recordChannel_capture (s : State) (iv : Interval) (cc : CloseCause) (c : Chan) :
    (State.recordChannel iv cc s c).capture = s.capture := by
  have h := congrArg State.capture (recordChannel_frame s iv cc c); exact h
@[simp] theorem recordChannel_memory (s : State) (iv : Interval) (cc : CloseCause) (c : Chan) :
    (State.recordChannel iv cc s c).memory = s.memory := by
  have h := congrArg State.memory (recordChannel_frame s iv cc c); exact h
@[simp] theorem recordChannel_check (s : State) (iv : Interval) (cc : CloseCause) (c : Chan) :
    (State.recordChannel iv cc s c).check = s.check := by
  have h := congrArg State.check (recordChannel_frame s iv cc c); exact h
@[simp] theorem recordChannel_link (s : State) (iv : Interval) (cc : CloseCause) (c : Chan) :
    (State.recordChannel iv cc s c).link = s.link := by
  have h := congrArg State.link (recordChannel_frame s iv cc c); exact h
@[simp] theorem recordChannel_handed (s : State) (iv : Interval) (cc : CloseCause) (c : Chan) :
    (State.recordChannel iv cc s c).handed = s.handed := by
  have h := congrArg State.handed (recordChannel_frame s iv cc c); exact h
@[simp] theorem recordChannel_image (s : State) (iv : Interval) (cc : CloseCause) (c : Chan) :
    (State.recordChannel iv cc s c).image = s.image := by
  have h := congrArg State.image (recordChannel_frame s iv cc c); exact h
@[simp] theorem recordChannel_blockWork (s : State) (iv : Interval) (cc : CloseCause) (c : Chan) :
    (State.recordChannel iv cc s c).blockWork = s.blockWork := by
  have h := congrArg State.blockWork (recordChannel_frame s iv cc c); exact h
@[simp] theorem recordChannel_choice (s : State) (iv : Interval) (cc : CloseCause) (c : Chan) :
    (State.recordChannel iv cc s c).choice = s.choice := by
  have h := congrArg State.choice (recordChannel_frame s iv cc c); exact h
@[simp] theorem recordChannel_pending (s : State) (iv : Interval) (cc : CloseCause) (c : Chan) :
    (State.recordChannel iv cc s c).pending = s.pending := by
  have h := congrArg State.pending (recordChannel_frame s iv cc c); exact h

/-- A close changes the interval, the entry in force, the thresholds and the record FIFO. -/
theorem closeInterval_frame (s : State) (iv : Interval) (cc : CloseCause) :
    (s.closeInterval iv cc) =
      { s with
        interval := (s.closeInterval iv cc).interval, clock := (s.closeInterval iv cc).clock
        monitor := (s.closeInterval iv cc).monitor, recordsLost := (s.closeInterval iv cc).recordsLost
        report := (s.closeInterval iv cc).report, fifo := (s.closeInterval iv cc).fifo } := by
  unfold State.closeInterval Chan.all List.foldl
  (try dsimp only)
  all_goals (apply State.ext_fields <;> first | rfl | simp)

@[simp] theorem closeInterval_port (s : State) (iv : Interval) (cc : CloseCause) :
    (s.closeInterval iv cc).port = s.port := by
  have h := congrArg State.port (closeInterval_frame s iv cc); exact h
@[simp] theorem closeInterval_range (s : State) (iv : Interval) (cc : CloseCause) :
    (s.closeInterval iv cc).range = s.range := by
  have h := congrArg State.range (closeInterval_frame s iv cc); exact h
@[simp] theorem closeInterval_unit (s : State) (iv : Interval) (cc : CloseCause) :
    (s.closeInterval iv cc).unit = s.unit := by
  have h := congrArg State.unit (closeInterval_frame s iv cc); exact h
@[simp] theorem closeInterval_store (s : State) (iv : Interval) (cc : CloseCause) :
    (s.closeInterval iv cc).store = s.store := by
  have h := congrArg State.store (closeInterval_frame s iv cc); exact h
@[simp] theorem closeInterval_acc (s : State) (iv : Interval) (cc : CloseCause) :
    (s.closeInterval iv cc).acc = s.acc := by
  have h := congrArg State.acc (closeInterval_frame s iv cc); exact h
@[simp] theorem closeInterval_nextEpisode (s : State) (iv : Interval) (cc : CloseCause) :
    (s.closeInterval iv cc).nextEpisode = s.nextEpisode := by
  have h := congrArg State.nextEpisode (closeInterval_frame s iv cc); exact h
@[simp] theorem closeInterval_alert (s : State) (iv : Interval) (cc : CloseCause) :
    (s.closeInterval iv cc).alert = s.alert := by
  have h := congrArg State.alert (closeInterval_frame s iv cc); exact h
@[simp] theorem closeInterval_capture (s : State) (iv : Interval) (cc : CloseCause) :
    (s.closeInterval iv cc).capture = s.capture := by
  have h := congrArg State.capture (closeInterval_frame s iv cc); exact h
@[simp] theorem closeInterval_memory (s : State) (iv : Interval) (cc : CloseCause) :
    (s.closeInterval iv cc).memory = s.memory := by
  have h := congrArg State.memory (closeInterval_frame s iv cc); exact h
@[simp] theorem closeInterval_check (s : State) (iv : Interval) (cc : CloseCause) :
    (s.closeInterval iv cc).check = s.check := by
  have h := congrArg State.check (closeInterval_frame s iv cc); exact h
@[simp] theorem closeInterval_link (s : State) (iv : Interval) (cc : CloseCause) :
    (s.closeInterval iv cc).link = s.link := by
  have h := congrArg State.link (closeInterval_frame s iv cc); exact h
@[simp] theorem closeInterval_handed (s : State) (iv : Interval) (cc : CloseCause) :
    (s.closeInterval iv cc).handed = s.handed := by
  have h := congrArg State.handed (closeInterval_frame s iv cc); exact h
@[simp] theorem closeInterval_image (s : State) (iv : Interval) (cc : CloseCause) :
    (s.closeInterval iv cc).image = s.image := by
  have h := congrArg State.image (closeInterval_frame s iv cc); exact h
@[simp] theorem closeInterval_blockWork (s : State) (iv : Interval) (cc : CloseCause) :
    (s.closeInterval iv cc).blockWork = s.blockWork := by
  have h := congrArg State.blockWork (closeInterval_frame s iv cc); exact h
@[simp] theorem closeInterval_choice (s : State) (iv : Interval) (cc : CloseCause) :
    (s.closeInterval iv cc).choice = s.choice := by
  have h := congrArg State.choice (closeInterval_frame s iv cc); exact h
@[simp] theorem closeInterval_pending (s : State) (iv : Interval) (cc : CloseCause) :
    (s.closeInterval iv cc).pending = s.pending := by
  have h := congrArg State.pending (closeInterval_frame s iv cc); exact h

/-- The carried clock-set mark is the accumulator's. -/
theorem carryClock_frame (s : State) :
    (s.carryClock) =
      { s with
        acc := (s.carryClock).acc } := by
  unfold State.carryClock
  (try dsimp only)

@[simp] theorem carryClock_port (s : State) :
    (s.carryClock).port = s.port := by
  have h := congrArg State.port (carryClock_frame s); exact h
@[simp] theorem carryClock_range (s : State) :
    (s.carryClock).range = s.range := by
  have h := congrArg State.range (carryClock_frame s); exact h
@[simp] theorem carryClock_unit (s : State) :
    (s.carryClock).unit = s.unit := by
  have h := congrArg State.unit (carryClock_frame s); exact h
@[simp] theorem carryClock_clock (s : State) :
    (s.carryClock).clock = s.clock := by
  have h := congrArg State.clock (carryClock_frame s); exact h
@[simp] theorem carryClock_store (s : State) :
    (s.carryClock).store = s.store := by
  have h := congrArg State.store (carryClock_frame s); exact h
@[simp] theorem carryClock_interval (s : State) :
    (s.carryClock).interval = s.interval := by
  have h := congrArg State.interval (carryClock_frame s); exact h
@[simp] theorem carryClock_fifo (s : State) :
    (s.carryClock).fifo = s.fifo := by
  have h := congrArg State.fifo (carryClock_frame s); exact h
@[simp] theorem carryClock_recordsLost (s : State) :
    (s.carryClock).recordsLost = s.recordsLost := by
  have h := congrArg State.recordsLost (carryClock_frame s); exact h
@[simp] theorem carryClock_monitor (s : State) :
    (s.carryClock).monitor = s.monitor := by
  have h := congrArg State.monitor (carryClock_frame s); exact h
@[simp] theorem carryClock_nextEpisode (s : State) :
    (s.carryClock).nextEpisode = s.nextEpisode := by
  have h := congrArg State.nextEpisode (carryClock_frame s); exact h
@[simp] theorem carryClock_alert (s : State) :
    (s.carryClock).alert = s.alert := by
  have h := congrArg State.alert (carryClock_frame s); exact h
@[simp] theorem carryClock_capture (s : State) :
    (s.carryClock).capture = s.capture := by
  have h := congrArg State.capture (carryClock_frame s); exact h
@[simp] theorem carryClock_memory (s : State) :
    (s.carryClock).memory = s.memory := by
  have h := congrArg State.memory (carryClock_frame s); exact h
@[simp] theorem carryClock_check (s : State) :
    (s.carryClock).check = s.check := by
  have h := congrArg State.check (carryClock_frame s); exact h
@[simp] theorem carryClock_report (s : State) :
    (s.carryClock).report = s.report := by
  have h := congrArg State.report (carryClock_frame s); exact h
@[simp] theorem carryClock_link (s : State) :
    (s.carryClock).link = s.link := by
  have h := congrArg State.link (carryClock_frame s); exact h
@[simp] theorem carryClock_handed (s : State) :
    (s.carryClock).handed = s.handed := by
  have h := congrArg State.handed (carryClock_frame s); exact h
@[simp] theorem carryClock_image (s : State) :
    (s.carryClock).image = s.image := by
  have h := congrArg State.image (carryClock_frame s); exact h
@[simp] theorem carryClock_blockWork (s : State) :
    (s.carryClock).blockWork = s.blockWork := by
  have h := congrArg State.blockWork (carryClock_frame s); exact h
@[simp] theorem carryClock_choice (s : State) :
    (s.carryClock).choice = s.choice := by
  have h := congrArg State.choice (carryClock_frame s); exact h
@[simp] theorem carryClock_pending (s : State) :
    (s.carryClock).pending = s.pending := by
  have h := congrArg State.pending (carryClock_frame s); exact h

/-- Closes in a free order change the monitor and the capture controller and offer events. -/
theorem closeAll_frame (s : State) (pick : Nat → Nat) (l : List Chan) (r : CloseReason) (g : State → Stamp) :
    (s.eachFreely pick l fun c s => s.closeEpisode c r (g s)) =
      { s with
        choice := (s.eachFreely pick l fun c s => s.closeEpisode c r (g s)).choice
        monitor := (s.eachFreely pick l fun c s => s.closeEpisode c r (g s)).monitor
        capture := (s.eachFreely pick l fun c s => s.closeEpisode c r (g s)).capture
        report := (s.eachFreely pick l fun c s => s.closeEpisode c r (g s)).report
        fifo := (s.eachFreely pick l fun c s => s.closeEpisode c r (g s)).fifo } := by
  refine eachFreely_keeps (fun t => t = { s with choice := t.choice, monitor := t.monitor, capture := t.capture
                                                 report := t.report, fifo := t.fifo }) pick _ _ ?_ ?_ s rfl
  · intro t n ht; rw [ht]
  · intro c _ t ht; rw [closeEpisode_frame t, ht]

@[simp] theorem closeAll_port (s : State) (pick : Nat → Nat) (l : List Chan) (r : CloseReason) (g : State → Stamp) :
    (s.eachFreely pick l fun c s => s.closeEpisode c r (g s)).port = s.port := by
  have h := congrArg State.port (closeAll_frame s pick l r g); exact h
@[simp] theorem closeAll_range (s : State) (pick : Nat → Nat) (l : List Chan) (r : CloseReason) (g : State → Stamp) :
    (s.eachFreely pick l fun c s => s.closeEpisode c r (g s)).range = s.range := by
  have h := congrArg State.range (closeAll_frame s pick l r g); exact h
@[simp] theorem closeAll_unit (s : State) (pick : Nat → Nat) (l : List Chan) (r : CloseReason) (g : State → Stamp) :
    (s.eachFreely pick l fun c s => s.closeEpisode c r (g s)).unit = s.unit := by
  have h := congrArg State.unit (closeAll_frame s pick l r g); exact h
@[simp] theorem closeAll_clock (s : State) (pick : Nat → Nat) (l : List Chan) (r : CloseReason) (g : State → Stamp) :
    (s.eachFreely pick l fun c s => s.closeEpisode c r (g s)).clock = s.clock := by
  have h := congrArg State.clock (closeAll_frame s pick l r g); exact h
@[simp] theorem closeAll_store (s : State) (pick : Nat → Nat) (l : List Chan) (r : CloseReason) (g : State → Stamp) :
    (s.eachFreely pick l fun c s => s.closeEpisode c r (g s)).store = s.store := by
  have h := congrArg State.store (closeAll_frame s pick l r g); exact h
@[simp] theorem closeAll_acc (s : State) (pick : Nat → Nat) (l : List Chan) (r : CloseReason) (g : State → Stamp) :
    (s.eachFreely pick l fun c s => s.closeEpisode c r (g s)).acc = s.acc := by
  have h := congrArg State.acc (closeAll_frame s pick l r g); exact h
@[simp] theorem closeAll_interval (s : State) (pick : Nat → Nat) (l : List Chan) (r : CloseReason) (g : State → Stamp) :
    (s.eachFreely pick l fun c s => s.closeEpisode c r (g s)).interval = s.interval := by
  have h := congrArg State.interval (closeAll_frame s pick l r g); exact h
@[simp] theorem closeAll_recordsLost (s : State) (pick : Nat → Nat) (l : List Chan) (r : CloseReason) (g : State → Stamp) :
    (s.eachFreely pick l fun c s => s.closeEpisode c r (g s)).recordsLost = s.recordsLost := by
  have h := congrArg State.recordsLost (closeAll_frame s pick l r g); exact h
@[simp] theorem closeAll_nextEpisode (s : State) (pick : Nat → Nat) (l : List Chan) (r : CloseReason) (g : State → Stamp) :
    (s.eachFreely pick l fun c s => s.closeEpisode c r (g s)).nextEpisode = s.nextEpisode := by
  have h := congrArg State.nextEpisode (closeAll_frame s pick l r g); exact h
@[simp] theorem closeAll_alert (s : State) (pick : Nat → Nat) (l : List Chan) (r : CloseReason) (g : State → Stamp) :
    (s.eachFreely pick l fun c s => s.closeEpisode c r (g s)).alert = s.alert := by
  have h := congrArg State.alert (closeAll_frame s pick l r g); exact h
@[simp] theorem closeAll_memory (s : State) (pick : Nat → Nat) (l : List Chan) (r : CloseReason) (g : State → Stamp) :
    (s.eachFreely pick l fun c s => s.closeEpisode c r (g s)).memory = s.memory := by
  have h := congrArg State.memory (closeAll_frame s pick l r g); exact h
@[simp] theorem closeAll_check (s : State) (pick : Nat → Nat) (l : List Chan) (r : CloseReason) (g : State → Stamp) :
    (s.eachFreely pick l fun c s => s.closeEpisode c r (g s)).check = s.check := by
  have h := congrArg State.check (closeAll_frame s pick l r g); exact h
@[simp] theorem closeAll_link (s : State) (pick : Nat → Nat) (l : List Chan) (r : CloseReason) (g : State → Stamp) :
    (s.eachFreely pick l fun c s => s.closeEpisode c r (g s)).link = s.link := by
  have h := congrArg State.link (closeAll_frame s pick l r g); exact h
@[simp] theorem closeAll_handed (s : State) (pick : Nat → Nat) (l : List Chan) (r : CloseReason) (g : State → Stamp) :
    (s.eachFreely pick l fun c s => s.closeEpisode c r (g s)).handed = s.handed := by
  have h := congrArg State.handed (closeAll_frame s pick l r g); exact h
@[simp] theorem closeAll_image (s : State) (pick : Nat → Nat) (l : List Chan) (r : CloseReason) (g : State → Stamp) :
    (s.eachFreely pick l fun c s => s.closeEpisode c r (g s)).image = s.image := by
  have h := congrArg State.image (closeAll_frame s pick l r g); exact h
@[simp] theorem closeAll_blockWork (s : State) (pick : Nat → Nat) (l : List Chan) (r : CloseReason) (g : State → Stamp) :
    (s.eachFreely pick l fun c s => s.closeEpisode c r (g s)).blockWork = s.blockWork := by
  have h := congrArg State.blockWork (closeAll_frame s pick l r g); exact h
@[simp] theorem closeAll_pending (s : State) (pick : Nat → Nat) (l : List Chan) (r : CloseReason) (g : State → Stamp) :
    (s.eachFreely pick l fun c s => s.closeEpisode c r (g s)).pending = s.pending := by
  have h := congrArg State.pending (closeAll_frame s pick l r g); exact h

/-- The closes of an opening change the monitor and the capture controller and offer events. -/
theorem closeUnlimited_frame (s : State) (pick : Nat → Nat) :
    (s.closeUnlimited pick) =
      { s with
        choice := (s.closeUnlimited pick).choice, monitor := (s.closeUnlimited pick).monitor
        capture := (s.closeUnlimited pick).capture, report := (s.closeUnlimited pick).report
        fifo := (s.closeUnlimited pick).fifo } := by
  unfold State.closeUnlimited
  all_goals (apply State.ext_fields <;> first | rfl | simp)

@[simp] theorem closeUnlimited_port (s : State) (pick : Nat → Nat) :
    (s.closeUnlimited pick).port = s.port := by
  have h := congrArg State.port (closeUnlimited_frame s pick); exact h
@[simp] theorem closeUnlimited_range (s : State) (pick : Nat → Nat) :
    (s.closeUnlimited pick).range = s.range := by
  have h := congrArg State.range (closeUnlimited_frame s pick); exact h
@[simp] theorem closeUnlimited_unit (s : State) (pick : Nat → Nat) :
    (s.closeUnlimited pick).unit = s.unit := by
  have h := congrArg State.unit (closeUnlimited_frame s pick); exact h
@[simp] theorem closeUnlimited_clock (s : State) (pick : Nat → Nat) :
    (s.closeUnlimited pick).clock = s.clock := by
  have h := congrArg State.clock (closeUnlimited_frame s pick); exact h
@[simp] theorem closeUnlimited_store (s : State) (pick : Nat → Nat) :
    (s.closeUnlimited pick).store = s.store := by
  have h := congrArg State.store (closeUnlimited_frame s pick); exact h
@[simp] theorem closeUnlimited_acc (s : State) (pick : Nat → Nat) :
    (s.closeUnlimited pick).acc = s.acc := by
  have h := congrArg State.acc (closeUnlimited_frame s pick); exact h
@[simp] theorem closeUnlimited_interval (s : State) (pick : Nat → Nat) :
    (s.closeUnlimited pick).interval = s.interval := by
  have h := congrArg State.interval (closeUnlimited_frame s pick); exact h
@[simp] theorem closeUnlimited_recordsLost (s : State) (pick : Nat → Nat) :
    (s.closeUnlimited pick).recordsLost = s.recordsLost := by
  have h := congrArg State.recordsLost (closeUnlimited_frame s pick); exact h
@[simp] theorem closeUnlimited_nextEpisode (s : State) (pick : Nat → Nat) :
    (s.closeUnlimited pick).nextEpisode = s.nextEpisode := by
  have h := congrArg State.nextEpisode (closeUnlimited_frame s pick); exact h
@[simp] theorem closeUnlimited_alert (s : State) (pick : Nat → Nat) :
    (s.closeUnlimited pick).alert = s.alert := by
  have h := congrArg State.alert (closeUnlimited_frame s pick); exact h
@[simp] theorem closeUnlimited_memory (s : State) (pick : Nat → Nat) :
    (s.closeUnlimited pick).memory = s.memory := by
  have h := congrArg State.memory (closeUnlimited_frame s pick); exact h
@[simp] theorem closeUnlimited_check (s : State) (pick : Nat → Nat) :
    (s.closeUnlimited pick).check = s.check := by
  have h := congrArg State.check (closeUnlimited_frame s pick); exact h
@[simp] theorem closeUnlimited_link (s : State) (pick : Nat → Nat) :
    (s.closeUnlimited pick).link = s.link := by
  have h := congrArg State.link (closeUnlimited_frame s pick); exact h
@[simp] theorem closeUnlimited_handed (s : State) (pick : Nat → Nat) :
    (s.closeUnlimited pick).handed = s.handed := by
  have h := congrArg State.handed (closeUnlimited_frame s pick); exact h
@[simp] theorem closeUnlimited_image (s : State) (pick : Nat → Nat) :
    (s.closeUnlimited pick).image = s.image := by
  have h := congrArg State.image (closeUnlimited_frame s pick); exact h
@[simp] theorem closeUnlimited_blockWork (s : State) (pick : Nat → Nat) :
    (s.closeUnlimited pick).blockWork = s.blockWork := by
  have h := congrArg State.blockWork (closeUnlimited_frame s pick); exact h
@[simp] theorem closeUnlimited_pending (s : State) (pick : Nat → Nat) :
    (s.closeUnlimited pick).pending = s.pending := by
  have h := congrArg State.pending (closeUnlimited_frame s pick); exact h

/-- An opening changes the interval, the entry in force, the accumulator's flags, the thresholds, and closes episodes. -/
theorem openInterval_frame (s : State) (pick : Nat → Nat) (n : Quad Nat) (b : Bool) :
    (s.openInterval pick n b) =
      { s with
        interval := (s.openInterval pick n b).interval, clock := (s.openInterval pick n b).clock
        acc := (s.openInterval pick n b).acc, choice := (s.openInterval pick n b).choice
        monitor := (s.openInterval pick n b).monitor, capture := (s.openInterval pick n b).capture
        report := (s.openInterval pick n b).report, fifo := (s.openInterval pick n b).fifo } := by
  unfold State.openInterval
  (try dsimp only)
  all_goals (apply State.ext_fields <;> first | rfl | simp)

@[simp] theorem openInterval_port (s : State) (pick : Nat → Nat) (n : Quad Nat) (b : Bool) :
    (s.openInterval pick n b).port = s.port := by
  have h := congrArg State.port (openInterval_frame s pick n b); exact h
@[simp] theorem openInterval_range (s : State) (pick : Nat → Nat) (n : Quad Nat) (b : Bool) :
    (s.openInterval pick n b).range = s.range := by
  have h := congrArg State.range (openInterval_frame s pick n b); exact h
@[simp] theorem openInterval_unit (s : State) (pick : Nat → Nat) (n : Quad Nat) (b : Bool) :
    (s.openInterval pick n b).unit = s.unit := by
  have h := congrArg State.unit (openInterval_frame s pick n b); exact h
@[simp] theorem openInterval_store (s : State) (pick : Nat → Nat) (n : Quad Nat) (b : Bool) :
    (s.openInterval pick n b).store = s.store := by
  have h := congrArg State.store (openInterval_frame s pick n b); exact h
@[simp] theorem openInterval_recordsLost (s : State) (pick : Nat → Nat) (n : Quad Nat) (b : Bool) :
    (s.openInterval pick n b).recordsLost = s.recordsLost := by
  have h := congrArg State.recordsLost (openInterval_frame s pick n b); exact h
@[simp] theorem openInterval_nextEpisode (s : State) (pick : Nat → Nat) (n : Quad Nat) (b : Bool) :
    (s.openInterval pick n b).nextEpisode = s.nextEpisode := by
  have h := congrArg State.nextEpisode (openInterval_frame s pick n b); exact h
@[simp] theorem openInterval_alert (s : State) (pick : Nat → Nat) (n : Quad Nat) (b : Bool) :
    (s.openInterval pick n b).alert = s.alert := by
  have h := congrArg State.alert (openInterval_frame s pick n b); exact h
@[simp] theorem openInterval_memory (s : State) (pick : Nat → Nat) (n : Quad Nat) (b : Bool) :
    (s.openInterval pick n b).memory = s.memory := by
  have h := congrArg State.memory (openInterval_frame s pick n b); exact h
@[simp] theorem openInterval_check (s : State) (pick : Nat → Nat) (n : Quad Nat) (b : Bool) :
    (s.openInterval pick n b).check = s.check := by
  have h := congrArg State.check (openInterval_frame s pick n b); exact h
@[simp] theorem openInterval_link (s : State) (pick : Nat → Nat) (n : Quad Nat) (b : Bool) :
    (s.openInterval pick n b).link = s.link := by
  have h := congrArg State.link (openInterval_frame s pick n b); exact h
@[simp] theorem openInterval_handed (s : State) (pick : Nat → Nat) (n : Quad Nat) (b : Bool) :
    (s.openInterval pick n b).handed = s.handed := by
  have h := congrArg State.handed (openInterval_frame s pick n b); exact h
@[simp] theorem openInterval_image (s : State) (pick : Nat → Nat) (n : Quad Nat) (b : Bool) :
    (s.openInterval pick n b).image = s.image := by
  have h := congrArg State.image (openInterval_frame s pick n b); exact h
@[simp] theorem openInterval_blockWork (s : State) (pick : Nat → Nat) (n : Quad Nat) (b : Bool) :
    (s.openInterval pick n b).blockWork = s.blockWork := by
  have h := congrArg State.blockWork (openInterval_frame s pick n b); exact h
@[simp] theorem openInterval_pending (s : State) (pick : Nat → Nat) (n : Quad Nat) (b : Bool) :
    (s.openInterval pick n b).pending = s.pending := by
  have h := congrArg State.pending (openInterval_frame s pick n b); exact h

/-- An entry to HELD changes the accumulator, closes episodes and may apply a commit. -/
theorem enterHeld_frame (s : State) (pick : Nat → Nat) (n : Option Nat) :
    (s.enterHeld pick n) =
      { s with
        choice := (s.enterHeld pick n).choice, monitor := (s.enterHeld pick n).monitor
        capture := (s.enterHeld pick n).capture, store := (s.enterHeld pick n).store
        range := (s.enterHeld pick n).range, unit := (s.enterHeld pick n).unit, acc := (s.enterHeld pick n).acc
        check := (s.enterHeld pick n).check, report := (s.enterHeld pick n).report
        fifo := (s.enterHeld pick n).fifo } := by
  unfold State.enterHeld
  (try dsimp only)
  repeat' split
  all_goals (apply State.ext_fields <;> first | rfl | simp)

@[simp] theorem enterHeld_port (s : State) (pick : Nat → Nat) (n : Option Nat) :
    (s.enterHeld pick n).port = s.port := by
  have h := congrArg State.port (enterHeld_frame s pick n); exact h
@[simp] theorem enterHeld_clock (s : State) (pick : Nat → Nat) (n : Option Nat) :
    (s.enterHeld pick n).clock = s.clock := by
  have h := congrArg State.clock (enterHeld_frame s pick n); exact h
@[simp] theorem enterHeld_interval (s : State) (pick : Nat → Nat) (n : Option Nat) :
    (s.enterHeld pick n).interval = s.interval := by
  have h := congrArg State.interval (enterHeld_frame s pick n); exact h
@[simp] theorem enterHeld_recordsLost (s : State) (pick : Nat → Nat) (n : Option Nat) :
    (s.enterHeld pick n).recordsLost = s.recordsLost := by
  have h := congrArg State.recordsLost (enterHeld_frame s pick n); exact h
@[simp] theorem enterHeld_nextEpisode (s : State) (pick : Nat → Nat) (n : Option Nat) :
    (s.enterHeld pick n).nextEpisode = s.nextEpisode := by
  have h := congrArg State.nextEpisode (enterHeld_frame s pick n); exact h
@[simp] theorem enterHeld_alert (s : State) (pick : Nat → Nat) (n : Option Nat) :
    (s.enterHeld pick n).alert = s.alert := by
  have h := congrArg State.alert (enterHeld_frame s pick n); exact h
@[simp] theorem enterHeld_memory (s : State) (pick : Nat → Nat) (n : Option Nat) :
    (s.enterHeld pick n).memory = s.memory := by
  have h := congrArg State.memory (enterHeld_frame s pick n); exact h
@[simp] theorem enterHeld_link (s : State) (pick : Nat → Nat) (n : Option Nat) :
    (s.enterHeld pick n).link = s.link := by
  have h := congrArg State.link (enterHeld_frame s pick n); exact h
@[simp] theorem enterHeld_handed (s : State) (pick : Nat → Nat) (n : Option Nat) :
    (s.enterHeld pick n).handed = s.handed := by
  have h := congrArg State.handed (enterHeld_frame s pick n); exact h
@[simp] theorem enterHeld_image (s : State) (pick : Nat → Nat) (n : Option Nat) :
    (s.enterHeld pick n).image = s.image := by
  have h := congrArg State.image (enterHeld_frame s pick n); exact h
@[simp] theorem enterHeld_blockWork (s : State) (pick : Nat → Nat) (n : Option Nat) :
    (s.enterHeld pick n).blockWork = s.blockWork := by
  have h := congrArg State.blockWork (enterHeld_frame s pick n); exact h
@[simp] theorem enterHeld_pending (s : State) (pick : Nat → Nat) (n : Option Nat) :
    (s.enterHeld pick n).pending = s.pending := by
  have h := congrArg State.pending (enterHeld_frame s pick n); exact h

/-- An entry to MEASURING may apply a commit and opens an interval. -/
theorem enterMeasuring_frame (s : State) (pick : Nat → Nat) :
    (s.enterMeasuring pick) =
      { s with
        interval := (s.enterMeasuring pick).interval, clock := (s.enterMeasuring pick).clock
        choice := (s.enterMeasuring pick).choice, monitor := (s.enterMeasuring pick).monitor
        capture := (s.enterMeasuring pick).capture, store := (s.enterMeasuring pick).store
        range := (s.enterMeasuring pick).range, unit := (s.enterMeasuring pick).unit
        acc := (s.enterMeasuring pick).acc, check := (s.enterMeasuring pick).check
        report := (s.enterMeasuring pick).report, fifo := (s.enterMeasuring pick).fifo } := by
  unfold State.enterMeasuring
  (try dsimp only)
  repeat' split
  all_goals (apply State.ext_fields <;> first | rfl | simp)

@[simp] theorem enterMeasuring_port (s : State) (pick : Nat → Nat) :
    (s.enterMeasuring pick).port = s.port := by
  have h := congrArg State.port (enterMeasuring_frame s pick); exact h
@[simp] theorem enterMeasuring_recordsLost (s : State) (pick : Nat → Nat) :
    (s.enterMeasuring pick).recordsLost = s.recordsLost := by
  have h := congrArg State.recordsLost (enterMeasuring_frame s pick); exact h
@[simp] theorem enterMeasuring_nextEpisode (s : State) (pick : Nat → Nat) :
    (s.enterMeasuring pick).nextEpisode = s.nextEpisode := by
  have h := congrArg State.nextEpisode (enterMeasuring_frame s pick); exact h
@[simp] theorem enterMeasuring_alert (s : State) (pick : Nat → Nat) :
    (s.enterMeasuring pick).alert = s.alert := by
  have h := congrArg State.alert (enterMeasuring_frame s pick); exact h
@[simp] theorem enterMeasuring_memory (s : State) (pick : Nat → Nat) :
    (s.enterMeasuring pick).memory = s.memory := by
  have h := congrArg State.memory (enterMeasuring_frame s pick); exact h
@[simp] theorem enterMeasuring_link (s : State) (pick : Nat → Nat) :
    (s.enterMeasuring pick).link = s.link := by
  have h := congrArg State.link (enterMeasuring_frame s pick); exact h
@[simp] theorem enterMeasuring_handed (s : State) (pick : Nat → Nat) :
    (s.enterMeasuring pick).handed = s.handed := by
  have h := congrArg State.handed (enterMeasuring_frame s pick); exact h
@[simp] theorem enterMeasuring_image (s : State) (pick : Nat → Nat) :
    (s.enterMeasuring pick).image = s.image := by
  have h := congrArg State.image (enterMeasuring_frame s pick); exact h
@[simp] theorem enterMeasuring_blockWork (s : State) (pick : Nat → Nat) :
    (s.enterMeasuring pick).blockWork = s.blockWork := by
  have h := congrArg State.blockWork (enterMeasuring_frame s pick); exact h
@[simp] theorem enterMeasuring_pending (s : State) (pick : Nat → Nat) :
    (s.enterMeasuring pick).pending = s.pending := by
  have h := congrArg State.pending (enterMeasuring_frame s pick); exact h

/-- The boundary operation with nothing to close. -/
theorem openingBoundary_frame (s : State) (pick : Nat → Nat) :
    (s.openingBoundary pick) =
      { s with
        interval := (s.openingBoundary pick).interval, clock := (s.openingBoundary pick).clock
        choice := (s.openingBoundary pick).choice, monitor := (s.openingBoundary pick).monitor
        capture := (s.openingBoundary pick).capture, store := (s.openingBoundary pick).store
        range := (s.openingBoundary pick).range, unit := (s.openingBoundary pick).unit
        acc := (s.openingBoundary pick).acc, check := (s.openingBoundary pick).check
        report := (s.openingBoundary pick).report, fifo := (s.openingBoundary pick).fifo } := by
  unfold State.openingBoundary
  repeat' split
  all_goals (apply State.ext_fields <;> first | rfl | simp)

@[simp] theorem openingBoundary_port (s : State) (pick : Nat → Nat) :
    (s.openingBoundary pick).port = s.port := by
  have h := congrArg State.port (openingBoundary_frame s pick); exact h
@[simp] theorem openingBoundary_recordsLost (s : State) (pick : Nat → Nat) :
    (s.openingBoundary pick).recordsLost = s.recordsLost := by
  have h := congrArg State.recordsLost (openingBoundary_frame s pick); exact h
@[simp] theorem openingBoundary_nextEpisode (s : State) (pick : Nat → Nat) :
    (s.openingBoundary pick).nextEpisode = s.nextEpisode := by
  have h := congrArg State.nextEpisode (openingBoundary_frame s pick); exact h
@[simp] theorem openingBoundary_alert (s : State) (pick : Nat → Nat) :
    (s.openingBoundary pick).alert = s.alert := by
  have h := congrArg State.alert (openingBoundary_frame s pick); exact h
@[simp] theorem openingBoundary_memory (s : State) (pick : Nat → Nat) :
    (s.openingBoundary pick).memory = s.memory := by
  have h := congrArg State.memory (openingBoundary_frame s pick); exact h
@[simp] theorem openingBoundary_link (s : State) (pick : Nat → Nat) :
    (s.openingBoundary pick).link = s.link := by
  have h := congrArg State.link (openingBoundary_frame s pick); exact h
@[simp] theorem openingBoundary_handed (s : State) (pick : Nat → Nat) :
    (s.openingBoundary pick).handed = s.handed := by
  have h := congrArg State.handed (openingBoundary_frame s pick); exact h
@[simp] theorem openingBoundary_image (s : State) (pick : Nat → Nat) :
    (s.openingBoundary pick).image = s.image := by
  have h := congrArg State.image (openingBoundary_frame s pick); exact h
@[simp] theorem openingBoundary_blockWork (s : State) (pick : Nat → Nat) :
    (s.openingBoundary pick).blockWork = s.blockWork := by
  have h := congrArg State.blockWork (openingBoundary_frame s pick); exact h
@[simp] theorem openingBoundary_pending (s : State) (pick : Nat → Nat) :
    (s.openingBoundary pick).pending = s.pending := by
  have h := congrArg State.pending (openingBoundary_frame s pick); exact h

/-- The accumulator's boundary work. -/
theorem boundaryStep_frame (s : State) (pick : Nat → Nat) :
    (s.boundaryStep pick) =
      { s with
        interval := (s.boundaryStep pick).interval, clock := (s.boundaryStep pick).clock
        choice := (s.boundaryStep pick).choice, monitor := (s.boundaryStep pick).monitor
        capture := (s.boundaryStep pick).capture, recordsLost := (s.boundaryStep pick).recordsLost
        store := (s.boundaryStep pick).store, range := (s.boundaryStep pick).range
        unit := (s.boundaryStep pick).unit, acc := (s.boundaryStep pick).acc
        check := (s.boundaryStep pick).check, report := (s.boundaryStep pick).report
        fifo := (s.boundaryStep pick).fifo } := by
  unfold State.boundaryStep
  (try dsimp only)
  repeat' split
  all_goals (apply State.ext_fields <;> first | rfl | simp)

@[simp] theorem boundaryStep_port (s : State) (pick : Nat → Nat) :
    (s.boundaryStep pick).port = s.port := by
  have h := congrArg State.port (boundaryStep_frame s pick); exact h
@[simp] theorem boundaryStep_nextEpisode (s : State) (pick : Nat → Nat) :
    (s.boundaryStep pick).nextEpisode = s.nextEpisode := by
  have h := congrArg State.nextEpisode (boundaryStep_frame s pick); exact h
@[simp] theorem boundaryStep_alert (s : State) (pick : Nat → Nat) :
    (s.boundaryStep pick).alert = s.alert := by
  have h := congrArg State.alert (boundaryStep_frame s pick); exact h
@[simp] theorem boundaryStep_memory (s : State) (pick : Nat → Nat) :
    (s.boundaryStep pick).memory = s.memory := by
  have h := congrArg State.memory (boundaryStep_frame s pick); exact h
@[simp] theorem boundaryStep_link (s : State) (pick : Nat → Nat) :
    (s.boundaryStep pick).link = s.link := by
  have h := congrArg State.link (boundaryStep_frame s pick); exact h
@[simp] theorem boundaryStep_handed (s : State) (pick : Nat → Nat) :
    (s.boundaryStep pick).handed = s.handed := by
  have h := congrArg State.handed (boundaryStep_frame s pick); exact h
@[simp] theorem boundaryStep_image (s : State) (pick : Nat → Nat) :
    (s.boundaryStep pick).image = s.image := by
  have h := congrArg State.image (boundaryStep_frame s pick); exact h
@[simp] theorem boundaryStep_blockWork (s : State) (pick : Nat → Nat) :
    (s.boundaryStep pick).blockWork = s.blockWork := by
  have h := congrArg State.blockWork (boundaryStep_frame s pick); exact h
@[simp] theorem boundaryStep_pending (s : State) (pick : Nat → Nat) :
    (s.boundaryStep pick).pending = s.pending := by
  have h := congrArg State.pending (boundaryStep_frame s pick); exact h

/-- The state after the block end is kept. -/
theorem takeImage_frame (s : State) :
    (s.takeImage) =
      { s with
        image := (s.takeImage).image } := by
  unfold State.takeImage
  (try dsimp only)

@[simp] theorem takeImage_port (s : State) :
    (s.takeImage).port = s.port := by
  have h := congrArg State.port (takeImage_frame s); exact h
@[simp] theorem takeImage_range (s : State) :
    (s.takeImage).range = s.range := by
  have h := congrArg State.range (takeImage_frame s); exact h
@[simp] theorem takeImage_unit (s : State) :
    (s.takeImage).unit = s.unit := by
  have h := congrArg State.unit (takeImage_frame s); exact h
@[simp] theorem takeImage_clock (s : State) :
    (s.takeImage).clock = s.clock := by
  have h := congrArg State.clock (takeImage_frame s); exact h
@[simp] theorem takeImage_store (s : State) :
    (s.takeImage).store = s.store := by
  have h := congrArg State.store (takeImage_frame s); exact h
@[simp] theorem takeImage_acc (s : State) :
    (s.takeImage).acc = s.acc := by
  have h := congrArg State.acc (takeImage_frame s); exact h
@[simp] theorem takeImage_interval (s : State) :
    (s.takeImage).interval = s.interval := by
  have h := congrArg State.interval (takeImage_frame s); exact h
@[simp] theorem takeImage_fifo (s : State) :
    (s.takeImage).fifo = s.fifo := by
  have h := congrArg State.fifo (takeImage_frame s); exact h
@[simp] theorem takeImage_recordsLost (s : State) :
    (s.takeImage).recordsLost = s.recordsLost := by
  have h := congrArg State.recordsLost (takeImage_frame s); exact h
@[simp] theorem takeImage_monitor (s : State) :
    (s.takeImage).monitor = s.monitor := by
  have h := congrArg State.monitor (takeImage_frame s); exact h
@[simp] theorem takeImage_nextEpisode (s : State) :
    (s.takeImage).nextEpisode = s.nextEpisode := by
  have h := congrArg State.nextEpisode (takeImage_frame s); exact h
@[simp] theorem takeImage_alert (s : State) :
    (s.takeImage).alert = s.alert := by
  have h := congrArg State.alert (takeImage_frame s); exact h
@[simp] theorem takeImage_capture (s : State) :
    (s.takeImage).capture = s.capture := by
  have h := congrArg State.capture (takeImage_frame s); exact h
@[simp] theorem takeImage_memory (s : State) :
    (s.takeImage).memory = s.memory := by
  have h := congrArg State.memory (takeImage_frame s); exact h
@[simp] theorem takeImage_check (s : State) :
    (s.takeImage).check = s.check := by
  have h := congrArg State.check (takeImage_frame s); exact h
@[simp] theorem takeImage_report (s : State) :
    (s.takeImage).report = s.report := by
  have h := congrArg State.report (takeImage_frame s); exact h
@[simp] theorem takeImage_link (s : State) :
    (s.takeImage).link = s.link := by
  have h := congrArg State.link (takeImage_frame s); exact h
@[simp] theorem takeImage_handed (s : State) :
    (s.takeImage).handed = s.handed := by
  have h := congrArg State.handed (takeImage_frame s); exact h
@[simp] theorem takeImage_blockWork (s : State) :
    (s.takeImage).blockWork = s.blockWork := by
  have h := congrArg State.blockWork (takeImage_frame s); exact h
@[simp] theorem takeImage_choice (s : State) :
    (s.takeImage).choice = s.choice := by
  have h := congrArg State.choice (takeImage_frame s); exact h
@[simp] theorem takeImage_pending (s : State) :
    (s.takeImage).pending = s.pending := by
  have h := congrArg State.pending (takeImage_frame s); exact h

/-- A live report changes the report queue and the record FIFO. -/
theorem putLive_frame (s : State) (r : LiveReport) :
    (s.putLive r) =
      { s with
        report := (s.putLive r).report, fifo := (s.putLive r).fifo } := by
  unfold State.putLive
  (try dsimp only)
  repeat' split
  all_goals (apply State.ext_fields <;> first | rfl | simp)

@[simp] theorem putLive_port (s : State) (r : LiveReport) :
    (s.putLive r).port = s.port := by
  have h := congrArg State.port (putLive_frame s r); exact h
@[simp] theorem putLive_range (s : State) (r : LiveReport) :
    (s.putLive r).range = s.range := by
  have h := congrArg State.range (putLive_frame s r); exact h
@[simp] theorem putLive_unit (s : State) (r : LiveReport) :
    (s.putLive r).unit = s.unit := by
  have h := congrArg State.unit (putLive_frame s r); exact h
@[simp] theorem putLive_clock (s : State) (r : LiveReport) :
    (s.putLive r).clock = s.clock := by
  have h := congrArg State.clock (putLive_frame s r); exact h
@[simp] theorem putLive_store (s : State) (r : LiveReport) :
    (s.putLive r).store = s.store := by
  have h := congrArg State.store (putLive_frame s r); exact h
@[simp] theorem putLive_acc (s : State) (r : LiveReport) :
    (s.putLive r).acc = s.acc := by
  have h := congrArg State.acc (putLive_frame s r); exact h
@[simp] theorem putLive_interval (s : State) (r : LiveReport) :
    (s.putLive r).interval = s.interval := by
  have h := congrArg State.interval (putLive_frame s r); exact h
@[simp] theorem putLive_recordsLost (s : State) (r : LiveReport) :
    (s.putLive r).recordsLost = s.recordsLost := by
  have h := congrArg State.recordsLost (putLive_frame s r); exact h
@[simp] theorem putLive_monitor (s : State) (r : LiveReport) :
    (s.putLive r).monitor = s.monitor := by
  have h := congrArg State.monitor (putLive_frame s r); exact h
@[simp] theorem putLive_nextEpisode (s : State) (r : LiveReport) :
    (s.putLive r).nextEpisode = s.nextEpisode := by
  have h := congrArg State.nextEpisode (putLive_frame s r); exact h
@[simp] theorem putLive_alert (s : State) (r : LiveReport) :
    (s.putLive r).alert = s.alert := by
  have h := congrArg State.alert (putLive_frame s r); exact h
@[simp] theorem putLive_capture (s : State) (r : LiveReport) :
    (s.putLive r).capture = s.capture := by
  have h := congrArg State.capture (putLive_frame s r); exact h
@[simp] theorem putLive_memory (s : State) (r : LiveReport) :
    (s.putLive r).memory = s.memory := by
  have h := congrArg State.memory (putLive_frame s r); exact h
@[simp] theorem putLive_check (s : State) (r : LiveReport) :
    (s.putLive r).check = s.check := by
  have h := congrArg State.check (putLive_frame s r); exact h
@[simp] theorem putLive_link (s : State) (r : LiveReport) :
    (s.putLive r).link = s.link := by
  have h := congrArg State.link (putLive_frame s r); exact h
@[simp] theorem putLive_handed (s : State) (r : LiveReport) :
    (s.putLive r).handed = s.handed := by
  have h := congrArg State.handed (putLive_frame s r); exact h
@[simp] theorem putLive_image (s : State) (r : LiveReport) :
    (s.putLive r).image = s.image := by
  have h := congrArg State.image (putLive_frame s r); exact h
@[simp] theorem putLive_blockWork (s : State) (r : LiveReport) :
    (s.putLive r).blockWork = s.blockWork := by
  have h := congrArg State.blockWork (putLive_frame s r); exact h
@[simp] theorem putLive_choice (s : State) (r : LiveReport) :
    (s.putLive r).choice = s.choice := by
  have h := congrArg State.choice (putLive_frame s r); exact h
@[simp] theorem putLive_pending (s : State) (r : LiveReport) :
    (s.putLive r).pending = s.pending := by
  have h := congrArg State.pending (putLive_frame s r); exact h

/-- The live step changes the image, the report queue and the record FIFO. -/
theorem liveStep_frame (s : State) :
    (s.liveStep) =
      { s with
        image := (s.liveStep).image, report := (s.liveStep).report, fifo := (s.liveStep).fifo } := by
  unfold State.liveStep
  (try dsimp only)
  repeat' split
  all_goals (apply State.ext_fields <;> first | rfl | simp)

@[simp] theorem liveStep_port (s : State) :
    (s.liveStep).port = s.port := by
  have h := congrArg State.port (liveStep_frame s); exact h
@[simp] theorem liveStep_range (s : State) :
    (s.liveStep).range = s.range := by
  have h := congrArg State.range (liveStep_frame s); exact h
@[simp] theorem liveStep_unit (s : State) :
    (s.liveStep).unit = s.unit := by
  have h := congrArg State.unit (liveStep_frame s); exact h
@[simp] theorem liveStep_clock (s : State) :
    (s.liveStep).clock = s.clock := by
  have h := congrArg State.clock (liveStep_frame s); exact h
@[simp] theorem liveStep_store (s : State) :
    (s.liveStep).store = s.store := by
  have h := congrArg State.store (liveStep_frame s); exact h
@[simp] theorem liveStep_acc (s : State) :
    (s.liveStep).acc = s.acc := by
  have h := congrArg State.acc (liveStep_frame s); exact h
@[simp] theorem liveStep_interval (s : State) :
    (s.liveStep).interval = s.interval := by
  have h := congrArg State.interval (liveStep_frame s); exact h
@[simp] theorem liveStep_recordsLost (s : State) :
    (s.liveStep).recordsLost = s.recordsLost := by
  have h := congrArg State.recordsLost (liveStep_frame s); exact h
@[simp] theorem liveStep_monitor (s : State) :
    (s.liveStep).monitor = s.monitor := by
  have h := congrArg State.monitor (liveStep_frame s); exact h
@[simp] theorem liveStep_nextEpisode (s : State) :
    (s.liveStep).nextEpisode = s.nextEpisode := by
  have h := congrArg State.nextEpisode (liveStep_frame s); exact h
@[simp] theorem liveStep_alert (s : State) :
    (s.liveStep).alert = s.alert := by
  have h := congrArg State.alert (liveStep_frame s); exact h
@[simp] theorem liveStep_capture (s : State) :
    (s.liveStep).capture = s.capture := by
  have h := congrArg State.capture (liveStep_frame s); exact h
@[simp] theorem liveStep_memory (s : State) :
    (s.liveStep).memory = s.memory := by
  have h := congrArg State.memory (liveStep_frame s); exact h
@[simp] theorem liveStep_check (s : State) :
    (s.liveStep).check = s.check := by
  have h := congrArg State.check (liveStep_frame s); exact h
@[simp] theorem liveStep_link (s : State) :
    (s.liveStep).link = s.link := by
  have h := congrArg State.link (liveStep_frame s); exact h
@[simp] theorem liveStep_handed (s : State) :
    (s.liveStep).handed = s.handed := by
  have h := congrArg State.handed (liveStep_frame s); exact h
@[simp] theorem liveStep_blockWork (s : State) :
    (s.liveStep).blockWork = s.blockWork := by
  have h := congrArg State.blockWork (liveStep_frame s); exact h
@[simp] theorem liveStep_choice (s : State) :
    (s.liveStep).choice = s.choice := by
  have h := congrArg State.choice (liveStep_frame s); exact h
@[simp] theorem liveStep_pending (s : State) :
    (s.liveStep).pending = s.pending := by
  have h := congrArg State.pending (liveStep_frame s); exact h

/-- The clock's step changes the clock and its report. -/
theorem clockStep_frame (s : State) :
    (s.clockStep) =
      { s with
        clock := (s.clockStep).clock, handed := (s.clockStep).handed } := by
  unfold State.clockStep
  (try dsimp only)
  repeat' split
  all_goals (apply State.ext_fields <;> first | rfl | simp)

@[simp] theorem clockStep_port (s : State) :
    (s.clockStep).port = s.port := by
  have h := congrArg State.port (clockStep_frame s); exact h
@[simp] theorem clockStep_range (s : State) :
    (s.clockStep).range = s.range := by
  have h := congrArg State.range (clockStep_frame s); exact h
@[simp] theorem clockStep_unit (s : State) :
    (s.clockStep).unit = s.unit := by
  have h := congrArg State.unit (clockStep_frame s); exact h
@[simp] theorem clockStep_store (s : State) :
    (s.clockStep).store = s.store := by
  have h := congrArg State.store (clockStep_frame s); exact h
@[simp] theorem clockStep_acc (s : State) :
    (s.clockStep).acc = s.acc := by
  have h := congrArg State.acc (clockStep_frame s); exact h
@[simp] theorem clockStep_interval (s : State) :
    (s.clockStep).interval = s.interval := by
  have h := congrArg State.interval (clockStep_frame s); exact h
@[simp] theorem clockStep_fifo (s : State) :
    (s.clockStep).fifo = s.fifo := by
  have h := congrArg State.fifo (clockStep_frame s); exact h
@[simp] theorem clockStep_recordsLost (s : State) :
    (s.clockStep).recordsLost = s.recordsLost := by
  have h := congrArg State.recordsLost (clockStep_frame s); exact h
@[simp] theorem clockStep_monitor (s : State) :
    (s.clockStep).monitor = s.monitor := by
  have h := congrArg State.monitor (clockStep_frame s); exact h
@[simp] theorem clockStep_nextEpisode (s : State) :
    (s.clockStep).nextEpisode = s.nextEpisode := by
  have h := congrArg State.nextEpisode (clockStep_frame s); exact h
@[simp] theorem clockStep_alert (s : State) :
    (s.clockStep).alert = s.alert := by
  have h := congrArg State.alert (clockStep_frame s); exact h
@[simp] theorem clockStep_capture (s : State) :
    (s.clockStep).capture = s.capture := by
  have h := congrArg State.capture (clockStep_frame s); exact h
@[simp] theorem clockStep_memory (s : State) :
    (s.clockStep).memory = s.memory := by
  have h := congrArg State.memory (clockStep_frame s); exact h
@[simp] theorem clockStep_check (s : State) :
    (s.clockStep).check = s.check := by
  have h := congrArg State.check (clockStep_frame s); exact h
@[simp] theorem clockStep_report (s : State) :
    (s.clockStep).report = s.report := by
  have h := congrArg State.report (clockStep_frame s); exact h
@[simp] theorem clockStep_link (s : State) :
    (s.clockStep).link = s.link := by
  have h := congrArg State.link (clockStep_frame s); exact h
@[simp] theorem clockStep_image (s : State) :
    (s.clockStep).image = s.image := by
  have h := congrArg State.image (clockStep_frame s); exact h
@[simp] theorem clockStep_blockWork (s : State) :
    (s.clockStep).blockWork = s.blockWork := by
  have h := congrArg State.blockWork (clockStep_frame s); exact h
@[simp] theorem clockStep_choice (s : State) :
    (s.clockStep).choice = s.choice := by
  have h := congrArg State.choice (clockStep_frame s); exact h
@[simp] theorem clockStep_pending (s : State) :
    (s.clockStep).pending = s.pending := by
  have h := congrArg State.pending (clockStep_frame s); exact h

/-- The end of the block changes the marks of the block. -/
theorem endOfBlock_frame (s : State) :
    (s.endOfBlock) =
      { s with
        blockWork := (s.endOfBlock).blockWork, acc := (s.endOfBlock).acc, capture := (s.endOfBlock).capture } := by
  unfold State.endOfBlock
  (try dsimp only)

@[simp] theorem endOfBlock_port (s : State) :
    (s.endOfBlock).port = s.port := by
  have h := congrArg State.port (endOfBlock_frame s); exact h
@[simp] theorem endOfBlock_range (s : State) :
    (s.endOfBlock).range = s.range := by
  have h := congrArg State.range (endOfBlock_frame s); exact h
@[simp] theorem endOfBlock_unit (s : State) :
    (s.endOfBlock).unit = s.unit := by
  have h := congrArg State.unit (endOfBlock_frame s); exact h
@[simp] theorem endOfBlock_clock (s : State) :
    (s.endOfBlock).clock = s.clock := by
  have h := congrArg State.clock (endOfBlock_frame s); exact h
@[simp] theorem endOfBlock_store (s : State) :
    (s.endOfBlock).store = s.store := by
  have h := congrArg State.store (endOfBlock_frame s); exact h
@[simp] theorem endOfBlock_interval (s : State) :
    (s.endOfBlock).interval = s.interval := by
  have h := congrArg State.interval (endOfBlock_frame s); exact h
@[simp] theorem endOfBlock_fifo (s : State) :
    (s.endOfBlock).fifo = s.fifo := by
  have h := congrArg State.fifo (endOfBlock_frame s); exact h
@[simp] theorem endOfBlock_recordsLost (s : State) :
    (s.endOfBlock).recordsLost = s.recordsLost := by
  have h := congrArg State.recordsLost (endOfBlock_frame s); exact h
@[simp] theorem endOfBlock_monitor (s : State) :
    (s.endOfBlock).monitor = s.monitor := by
  have h := congrArg State.monitor (endOfBlock_frame s); exact h
@[simp] theorem endOfBlock_nextEpisode (s : State) :
    (s.endOfBlock).nextEpisode = s.nextEpisode := by
  have h := congrArg State.nextEpisode (endOfBlock_frame s); exact h
@[simp] theorem endOfBlock_alert (s : State) :
    (s.endOfBlock).alert = s.alert := by
  have h := congrArg State.alert (endOfBlock_frame s); exact h
@[simp] theorem endOfBlock_memory (s : State) :
    (s.endOfBlock).memory = s.memory := by
  have h := congrArg State.memory (endOfBlock_frame s); exact h
@[simp] theorem endOfBlock_check (s : State) :
    (s.endOfBlock).check = s.check := by
  have h := congrArg State.check (endOfBlock_frame s); exact h
@[simp] theorem endOfBlock_report (s : State) :
    (s.endOfBlock).report = s.report := by
  have h := congrArg State.report (endOfBlock_frame s); exact h
@[simp] theorem endOfBlock_link (s : State) :
    (s.endOfBlock).link = s.link := by
  have h := congrArg State.link (endOfBlock_frame s); exact h
@[simp] theorem endOfBlock_handed (s : State) :
    (s.endOfBlock).handed = s.handed := by
  have h := congrArg State.handed (endOfBlock_frame s); exact h
@[simp] theorem endOfBlock_image (s : State) :
    (s.endOfBlock).image = s.image := by
  have h := congrArg State.image (endOfBlock_frame s); exact h
@[simp] theorem endOfBlock_choice (s : State) :
    (s.endOfBlock).choice = s.choice := by
  have h := congrArg State.choice (endOfBlock_frame s); exact h
@[simp] theorem endOfBlock_pending (s : State) :
    (s.endOfBlock).pending = s.pending := by
  have h := congrArg State.pending (endOfBlock_frame s); exact h

end Sys2Proof.Machine
end

