-- ==== Sys2Proof/Laws/Memory.lean ====
section
/-! SUPPORT. The capture memory: reading after writing, and the canonical form that every operation keeps. -/

namespace Sys2Proof.Machine.Memory

/-- A canonical memory from `low` on reads as unwritten below `low`. -/
theorem read_below {m : List Host.Cell} : ∀ {low a : Nat}, wfFrom low m = true → a < low → read m a = unwritten := by
  induction m with
  | nil => intros; rfl
  | cons c m ih =>
    obtain ⟨b, x⟩ := c
    intro low a h ha
    simp only [wfFrom, Bool.and_eq_true, decide_eq_true_eq] at h
    rw [read, if_neg (by omega)]
    exact ih h.2 (by omega)

theorem wfFrom_mono {m : List Host.Cell} {low low' : Nat} (hl : low' ≤ low) (h : wfFrom low m = true) :
    wfFrom low' m = true := by
  cases m with
  | nil => rfl
  | cons c m =>
    obtain ⟨b, x⟩ := c
    simp only [wfFrom, Bool.and_eq_true, decide_eq_true_eq] at h ⊢
    exact ⟨⟨by omega, h.1.2⟩, h.2⟩

theorem write_wfFrom {m : List Host.Cell} : ∀ {low a : Nat} {b : Byte}, low ≤ a → wfFrom low m = true →
    wfFrom low (write m a b) = true := by
  induction m with
  | nil =>
    intro low a b hl _
    unfold write
    split
    · rfl
    · simp [wfFrom, *]
  | cons c m ih =>
    obtain ⟨d, x⟩ := c
    intro low a b hl h
    have h' := h
    simp only [wfFrom, Bool.and_eq_true, decide_eq_true_eq] at h'
    unfold write
    split
    · split
      · exact h
      · simp only [wfFrom, Bool.and_eq_true, decide_eq_true_eq]
        exact ⟨⟨hl, by assumption⟩, ⟨⟨by omega, h'.1.2⟩, h'.2⟩⟩
    · split
      · split
        · exact wfFrom_mono (by omega) h'.2
        · simp only [wfFrom, Bool.and_eq_true, decide_eq_true_eq]
          exact ⟨⟨h'.1.1, by assumption⟩, h'.2⟩
      · simp only [wfFrom, Bool.and_eq_true, decide_eq_true_eq]
        exact ⟨h'.1, ih (by omega) h'.2⟩

/-- A write keeps the canonical form. -/
theorem write_wf {m : List Host.Cell} (a : Nat) (b : Byte) (h : wf m = true) : wf (write m a b) = true :=
  write_wfFrom (Nat.zero_le a) h

/-- A run of writes keeps the canonical form. -/
theorem writeAll_wf (bs : List Byte) : ∀ {m : List Host.Cell} (a : Nat), wf m = true → wf (writeAll m a bs) = true := by
  induction bs with
  | nil => exact fun _ h => h
  | cons b bs ih => exact fun a h => ih (a + 1) (write_wf a b h)

/-- Any list of cells comes out in canonical form. -/
theorem ofCells_wf (cells : List Host.Cell) : wf (ofCells cells) = true := by
  suffices h : ∀ m : List Host.Cell, wf m = true → wf (cells.foldl (fun m c => write m c.1 c.2) m) = true from h [] rfl
  induction cells with
  | nil => exact fun _ h => h
  | cons c cells ih => exact fun m h => ih _ (write_wf c.1 c.2 h)

theorem read_writeFrom {m : List Host.Cell} : ∀ {low : Nat}, wfFrom low m = true → ∀ (a d : Nat) (b : Byte),
    read (write m a b) d = if d = a then b else read m d := by
  induction m with
  | nil =>
    intro low _ a d b
    unfold write
    split
    · next h => by_cases hd : d = a <;> simp [read, hd, h]
    · by_cases hd : d = a
      · simp [read, hd]
      · simp [read, hd, Ne.symm hd]
  | cons c m ih =>
    obtain ⟨e, x⟩ := c
    intro low h a d b
    have h' := h
    simp only [wfFrom, Bool.and_eq_true, decide_eq_true_eq] at h'
    unfold write
    split
    · next hlt =>
      split
      · next hb =>
        by_cases hd : d = a
        · subst hd
          rw [if_pos rfl, hb]
          exact read_below (low := e) (by simp [wfFrom, h']) hlt
        · rw [if_neg hd]
      · by_cases hd : d = a
        · simp [read, hd]
        · rw [if_neg hd, read, if_neg (fun h => hd h.symm)]
    · split
      · next hae =>
        subst hae
        split
        · next hb =>
          by_cases hd : d = a
          · subst hd
            rw [if_pos rfl, hb]
            exact read_below h'.2 (by omega)
          · rw [if_neg hd, read, if_neg (fun h => hd h.symm)]
        · by_cases hd : d = a
          · simp [read, hd]
          · rw [if_neg hd, read, read, if_neg (fun h => hd h.symm), if_neg (fun h => hd h.symm)]
      · next hlt hne =>
        rw [read, read, ih h'.2 a d b]
        by_cases hd : d = a
        · subst hd
          rw [if_pos rfl, if_pos rfl, if_neg (fun h => hne h.symm)]
        · rw [if_neg hd, if_neg hd]

/-- Reading after a write: the byte written where it was written, and every other byte as before. -/
theorem read_write {m : List Host.Cell} (h : wf m = true) (a d : Nat) (b : Byte) :
    read (write m a b) d = if d = a then b else read m d := read_writeFrom h a d b

/-- Reading after a run of writes. -/
theorem read_writeAll (bs : List Byte) : ∀ {m : List Host.Cell}, wf m = true → ∀ (a d : Nat),
    read (writeAll m a bs) d = if a ≤ d ∧ d < a + bs.length then bs.getD (d - a) 0 else read m d := by
  induction bs with
  | nil => intro m _ a d; rw [if_neg (by simp)]; rfl
  | cons b bs ih =>
    intro m h a d
    rw [writeAll, ih (write_wf a b h) (a + 1) d, read_write h]
    by_cases h1 : a + 1 ≤ d ∧ d < a + 1 + bs.length
    · rw [if_pos h1, if_pos (by simp; omega)]
      have : d - a = (d - (a + 1)) + 1 := by omega
      rw [this]; simp
    · rw [if_neg h1]
      by_cases hd : d = a
      · subst hd; simp
      · rw [if_neg hd, if_neg (by simp; omega)]

theorem readAll_length (m : List Host.Cell) (a n : Nat) : (readAll m a n).length = n := by
  induction n generalizing a with
  | zero => rfl
  | succ n ih => simp [readAll, ih]

end Sys2Proof.Machine.Memory
end

