-- ==== Sys2Proof/Laws/Selection.lean ====
section
/-! SUPPORT. The two choices the part makes by priority: the transmitter's next message, also as an event arrives, and
the memory port's next operation. -/

namespace Sys2Proof.Machine

/-! ### The transmitter -/

/-- What the transmit selection does (R169). -/
theorem selected_transmit (s : State) : Selected s s.transmit := by
  unfold Selected State.transmit ReportQueue.afterNotice
  dsimp only
  constructor
  · intro h
    obtain ⟨m, hm⟩ := Option.isSome_iff_exists.1 h
    simp [hm]
  · intro h
    simp only [h]
    constructor
    · intro m ms hm; simp only [hm]
    · intro hr
      simp only [hr]
      refine ⟨?_, ?_, ?_⟩
      · rintro ⟨he, -⟩ n ns hn; simp only [he, hn]
      · rintro he ⟨hr, -⟩ r rs hf
        cases h1 : s.report.eventOn <;> cases h2 : s.report.events <;> simp_all
      · intro he hr
        constructor
        · intro r hl
          cases h1 : s.report.eventOn <;> cases h2 : s.report.events <;> cases h3 : s.report.recordOn <;> cases h4 : s.fifo <;> simp_all
        · intro hl
          cases h1 : s.report.eventOn <;> cases h2 : s.report.events <;> cases h3 : s.report.recordOn <;> cases h4 : s.fifo <;> simp_all

/-- When an event passes the masks (R162). -/
theorem passes_iff (q : ReportQueue) (c : Option Chan) (body : EventBody) :
    q.passes c body = true ↔ q.kindMask.getLsbD (body.kindCode - 1) = true ∧
      ∀ d, c = some d → q.chanMask.getLsbD (d.number - 1) = true := by
  unfold ReportQueue.passes; cases c <;> simp

/-- What an event that passes the masks does (R163, R169). -/
theorem selected_offer (s : State) (c : Option Chan) (stamp : Stamp) (body : EventBody)
    (h : s.report.passes c body = true) :
    Selected { s with report := s.report.enqueue ⟨c, stamp, body⟩ } (s.offer c stamp body) := by
  unfold State.offer; rw [if_pos h]; exact selected_transmit _

/-! ### The memory port -/

/-- With nothing in flight only the buffer bars a read (R139). -/
theorem writesTo_false (k : Capture) (i : Fin 16) (p : Nat) (h : k.inFlight = none) :
    k.writesTo i p = false ↔ ∀ e ∈ k.buffer, ¬(e.region = i ∧ e.position = p) := by
  unfold Capture.writesTo; simp [h]

/-- The read that waits, and when (R139). -/
theorem waitingRead_eq (k : Capture) (i : Fin 16) (p : Nat) (h : k.inFlight = none) :
    k.waitingRead = some (i, p) ↔ ∃ j, k.job = some j ∧ j.got.length < j.count ∧ i = j.region ∧
      p = (j.start + (j.first + j.got.length)) % 10000 ∧ ∀ e ∈ k.buffer, ¬(e.region = i ∧ e.position = p) := by
  unfold Capture.waitingRead
  cases hj : k.job with
  | none => simp
  | some j =>
    dsimp only
    split
    · next hc =>
      rw [writesTo_false k _ _ h] at hc
      constructor
      · rintro ⟨⟩
        exact ⟨j, rfl, hc.1, rfl, rfl, hc.2⟩
      · rintro ⟨_, ⟨⟩, -, rfl, rfl, -⟩
        rfl
    · next hc =>
      rw [writesTo_false k _ _ h] at hc
      constructor
      · rintro ⟨⟩
      · rintro ⟨_, ⟨⟩, hl, rfl, rfl, hb⟩
        exact absurd ⟨hl, hb⟩ hc

/-- What the arbiter begins on an idle port of a memory that is not lent (R138, R139). -/
theorem arbitrate_next (k : Capture) (h : k.inFlight = none) (hl : k.lend ≠ .lent) :
    NextOperation k.buffer k.job k.arbitrate.inFlight k.arbitrate.buffer := by
  have ha : k.arbitrate = match k.choose with
      | some (op, rest) => { k with inFlight := some op, buffer := rest }
      | none => k := by
    unfold Capture.arbitrate; rw [h]; cases hq : k.lend <;> first | rfl | exact absurd hq hl
  unfold NextOperation
  simp only [← waitingRead_eq k _ _ h]
  rw [ha]
  unfold Capture.choose
  cases hb : k.buffer with
  | nil => cases hr : k.waitingRead with
    | none => simp [h, hb]
    | some x => obtain ⟨i, p⟩ := x; simp
  | cons e es =>
    cases hr : k.waitingRead with
    | none => simp
    | some x =>
      obtain ⟨i, p⟩ := x
      by_cases hn : 3 ≤ (e :: es).length
      · simp only [if_pos hn]
        simp only [List.length_cons] at *
        refine ⟨by rintro _ _ ⟨⟩ -; exact ⟨rfl, rfl⟩, fun _ _ _ hlt => by omega, by simp⟩
      · simp only [if_neg hn]
        refine ⟨?_, ?_, by simp⟩
        · rintro _ _ ⟨⟩ (hn' | hn')
          · exact absurd hn' hn
          · exact absurd rfl (hn' i p)
        · rintro _ _ ⟨⟩ -; simp
end Sys2Proof.Machine
end

