-- ==== Sys2Proof/Laws/Wire.lean ====
section
/-! SUPPORT. The fields of messages: their lengths, and what a reader gets back from what a writer wrote (R182). -/

namespace Sys2Proof.Machine

/-! ### Lengths -/

@[simp] theorem u8_length (n : Nat) : (u8 n).length = 1 := rfl
@[simp] theorem u16_length (n : Nat) : (u16 n).length = 2 := rfl
@[simp] theorem u32_length (n : Nat) : (u32 n).length = 4 := rfl
@[simp] theorem i16_length (x : Int) : (i16 x).length = 2 := rfl
@[simp] theorem i32_length (x : Int) : (i32 x).length = 4 := rfl
@[simp] theorem flag_length (b : Bool) : (flag b).length = 1 := rfl
@[simp] theorem stampBytes_length (t : Stamp) : (stampBytes t).length = 10 := rfl
@[simp] theorem limitField_length (l : Option Int) : (limitField l).length = 2 := rfl
@[simp] theorem entryLimitBytes_length (l : Option Nat) : (entryLimitBytes l).length = 3 := rfl

/-- A descriptor has 31 bytes (R185). -/
@[simp] theorem descriptorBytes_length (region role : Nat) (tail : Option Nat) (d : Descriptor) :
    (descriptorBytes region role tail d).length = 31 := rfl
/-- A result record has 20 bytes (R185). -/
@[simp] theorem checkRecordBytes_length (r : CheckRecord) : (checkRecordBytes r).length = 20 := rfl
/-- An episode record has 46 bytes (R185). -/
@[simp] theorem episodeRecordBytes_length (r : EpisodeRecord) : (episodeRecordBytes r).length = 46 := rfl
/-- The general group has 6 bytes (R184). -/
@[simp] theorem generalBytes_length (s : Settings) : (generalBytes s).length = 6 := rfl
/-- A channel's group has 41 bytes (R184). -/
@[simp] theorem channelGroupBytes_length (s : Settings) (c : Chan) : (channelGroupBytes s c).length = 41 := rfl
/-- The weighting group has 180 bytes (R184). -/
@[simp] theorem weightingBytes_length (s : Settings) : (weightingBytes s).length = 180 := by
  simp [weightingBytes, weightingSetBytes, coeffsBytes]
@[simp] theorem scheduleEntryBytes_length (e : ScheduleEntry) : (scheduleEntryBytes e).length = 15 := rfl

/-! ### Reading what was written -/

theorem byteOf_toNat (n : Nat) : (byteOf n).toNat = n % 256 := by simp [byteOf]

/-- An unsigned two-byte field reads back. -/
theorem bytes16 {n : Nat} (h : n < 65536) : (byteOf n).toNat + 256 * (byteOf (n / 256)).toNat = n := by
  simp only [byteOf_toNat]; omega

/-- An unsigned four-byte field reads back. -/
theorem bytes32 {n : Nat} (h : n < 2 ^ 32) :
    (byteOf n).toNat + 256 * (byteOf (n / 256)).toNat
      + 65536 * ((byteOf (n / 65536)).toNat + 256 * (byteOf (n / 16777216)).toNat) = n := by
  simp only [byteOf_toNat]; omega

/-- A signed two-byte field reads back. -/
theorem signed16_of_mod {x : Int} (h : -32768 ≤ x ∧ x ≤ 32767) :
    (BitVec.ofNat 16 (x % 65536).toNat).toInt = x := by
  simp only [BitVec.toInt_eq_toNat_cond, BitVec.toNat_ofNat]; omega

/-- A signed four-byte field reads back. -/
theorem signed32_of_mod {x : Int} (h : -2 ^ 31 ≤ x ∧ x ≤ 2 ^ 31 - 1) :
    (BitVec.ofNat 32 (x % 4294967296).toNat).toInt = x := by
  simp only [BitVec.toInt_eq_toNat_cond, BitVec.toNat_ofNat]; omega

/-- A one-byte field of a body that holds the byte of `n`. -/
theorem field8_of {l : List Byte} {i n : Nat} (h0 : l.getD i 0 = byteOf n) (h : n < 256) : field8 l i = n := by
  simp only [field8, h0, byteOf_toNat]; omega

/-- An unsigned two-byte field of a body that holds the bytes of `n`. -/
theorem field16_of {l : List Byte} {i n : Nat} (h0 : l.getD i 0 = byteOf n) (h1 : l.getD (i + 1) 0 = byteOf (n / 256))
    (h : n < 65536) : field16 l i = n := by
  simp only [field16, field8, h0, h1]; exact bytes16 h

/-- An unsigned four-byte field of a body that holds the bytes of `n`. -/
theorem field32_of {l : List Byte} {i n : Nat} (h0 : l.getD i 0 = byteOf n) (h1 : l.getD (i + 1) 0 = byteOf (n / 256))
    (h2 : l.getD (i + 2) 0 = byteOf (n / 65536)) (h3 : l.getD (i + 2 + 1) 0 = byteOf (n / 16777216))
    (h : n < 2 ^ 32) : field32 l i = n := by
  simp only [field32, field16, field8, h0, h1, h2, h3]; exact bytes32 h

/-- A signed two-byte field of a body that holds the bytes of `x`. -/
theorem signed16_of {l : List Byte} {i : Nat} {x : Int} (h0 : l.getD i 0 = byteOf (x % 65536).toNat)
    (h1 : l.getD (i + 1) 0 = byteOf ((x % 65536).toNat / 256)) (h : -32768 ≤ x ∧ x ≤ 32767) : signed16 l i = x := by
  unfold signed16; rw [field16_of h0 h1 (by omega)]; exact signed16_of_mod h

/-- A signed four-byte field of a body that holds the bytes of `x`. -/
theorem signed32_of {l : List Byte} {i : Nat} {x : Int} (h0 : l.getD i 0 = byteOf (x % 4294967296).toNat)
    (h1 : l.getD (i + 1) 0 = byteOf ((x % 4294967296).toNat / 256))
    (h2 : l.getD (i + 2) 0 = byteOf ((x % 4294967296).toNat / 65536))
    (h3 : l.getD (i + 2 + 1) 0 = byteOf ((x % 4294967296).toNat / 16777216)) (h : -2 ^ 31 ≤ x ∧ x ≤ 2 ^ 31 - 1) :
    signed32 l i = x := by
  unfold signed32; rw [field32_of h0 h1 h2 h3 (by omega)]; exact signed32_of_mod h

/-- The byte of a channel number reads back. -/
@[simp] theorem chanOf_number (c : Chan) : chanOf c.number = some c := by cases c <;> rfl
/-- A yes/no byte reads back. -/
@[simp] theorem flagOf_toNat (b : Bool) : flagOf b.toNat = some b := by cases b <;> rfl
@[simp] theorem activityModeOf_code (m : ActivityMode) : activityModeOf m.code = some m := by cases m <;> rfl
@[simp] theorem alertModeOf_code (m : AlertMode) : alertModeOf m.code = some m := by cases m <;> rfl
@[simp] theorem checkSourceOf_code (m : CheckSource) : checkSourceOf m.code = some m := by cases m <;> rfl
@[simp] theorem liveItemOf_code (i : LiveItem) : liveItemOf i.code = some i := by cases i <;> rfl

end Sys2Proof.Machine
end

