-- ==== Sys2Proof/Tests/Slice0.lean ====
section
/-! SUPPORT. The writer's own checks: the well-formedness smoke test, and the worked examples of the chapters, each on
one command. Expected values come from the manual's examples, named in each docstring. The concrete states that meet the
hypotheses of the statements follow in the second half. -/

namespace Sys2Proof.Tests

open Sys2Proof.Machine

/-! ### Helpers -/

/-- The state after a command that completes. -/
def after (i : Instr) (s : State) : State :=
  match exec i s with
  | .next t => t
  | _ => s

/-- A host's commands and a port's events, one after another. -/
def afterAll (l : List Instr) (s : State) : State := l.foldl (fun s i => after i s) s

/-- Reset with a message in transmission. -/
def busy : State := { State.reset with report := { State.reset.report with sending := some ⟨0x70, 0, []⟩ } }

/-- Steps of a block end that are still to be taken. -/
def due (l : List Task) (s : State) : State := { s with blockWork := some l }

/-- A state with a monitor channel. -/
def withMonitor (m : MonitorChan) (s : State) : State := s.setMonitor .ch1 m

/-- A state whose channel 1 was handed these results, its block included. -/
def handed (r : BlockResults) (s : State) : State :=
  { s.setResults .ch1 r with handed := { (s.setResults .ch1 r).handed with classes := .same .active } }

/-- Block results with energy, peak and F value, settled. -/
def results (energy peak yF : Nat) : BlockResults :=
  ⟨energy, peak, yF, yF, true, true, 0, energy, List.replicate 48 512, false, 0, 0, 4⟩

/-! ### Well-formedness -/

def long : List Byte := List.replicate 1001 0

/-- R173: a body above 1000 bytes is refused for every command. -/
theorem test_wf_refuses_long_bodies :
    ([.unknownKind 0xFF 0 long, .ident 0 long, .status 0 long, .softReset 0 long, .setTime 0 long, .hold 0 long,
        .resume 0 long, .editChannel 0 long, .editRange 0 long, .editGainCodes 0 long, .editWeighting 0 long,
        .editLimits 0 long, .editInterval 0 long, .editActivity 0 long, .commit 0 long, .discard 0 long,
        .readSettings 0 long, .setAlert 0 long, .setCapture 0 long, .setReporting 0 long, .snapshot 0 long,
        .readRecord 0 long, .readEvent 0 long, .listCaptures 0 long, .readCapture 0 long, .releaseCapture 0 long,
        .lendMemory 0 long, .reclaimMemory 0 long, .startCheck 0 long, .abortCheck 0 long] : List Instr).all
      (fun i => !i.wellFormed) = true := by decide +kernel

/-- R177: a command kind is no unknown kind, at both ends of 01h to 1Dh. -/
theorem test_wf_refuses_known_kinds :
    (Instr.unknownKind 0x01 0 []).wellFormed = false ∧ (Instr.unknownKind 0x1D 0 []).wellFormed = false ∧
      (Instr.unknownKind 0x00 0 []).wellFormed = true ∧ (Instr.unknownKind 0x1E 0 []).wellFormed = true := by decide

/-- R173: 1000 bytes fit. -/
theorem test_wf_accepts_the_longest_body : (Instr.ident 0 (List.replicate 1000 0)).wellFormed = true := by
  decide +kernel

/-! ### Arithmetic (chapters 2 to 5) -/

/-- Sections 3.8 and 3.9: 1000 · log10 of 2,441,406 and of 158,489.3. -/
theorem test_level_of_square_wave :
    level 3000 117187488 48 = 9388 ∧ peakLevel 3000 400000 = 9388 ∧ level 3000 456449220000 2880000 = 8200 := by
  decide +kernel

/-- Section 3.9: the budget stands between the sums of blocks 11,985 and 11,986, and budget used reads 999 and 1000. -/
theorem test_budget_of_worked_case :
    91175731695 ≤ budgetOf 3000 7500 2880000 ∧ budgetOf 3000 7500 2880000 < 91183339182 ∧
      80 * budgetOf 3000 7500 2880000 / 100 < 72948192843 ∧
      budgetUsed (budgetThreshold 80 3000 2880000 (some 7500)) 91175731695 = 999 ∧
      budgetUsed (budgetThreshold 80 3000 2880000 (some 7500)) 456449220000 = 5006 := by decide +kernel

/-- Section 3.10: 75,000 reads 7875, and a difference of 222 gives INDET. -/
theorem test_site_contribution :
    siteContribution .gate 3000 2880000000000 28800000 288000000000 11520000 = 7875 ∧
      siteContribution .gate 3000 2880000000000 28800000 691200000000 11520000 = -32767 := by decide +kernel

def exampleBins : List Nat :=
  (List.range 240).map fun i =>
    match i with
    | 139 => 4 | 120 => 20 | 100 => 56 | 90 => 100 | 80 => 150 | 75 => 120 | 70 => 60 | 64 => 25 | 60 => 40 | _ => 0

/-- Section 3.12. -/
theorem test_percentiles :
    percentile 2000 exampleBins 0 600 10 = 7000 ∧ percentile 2000 exampleBins 0 600 50 = 6000 ∧
      percentile 2000 exampleBins 0 600 90 = 5000 ∧ percentile 2000 exampleBins 0 600 99 = -32766 := by
  decide +kernel

/-- Section 2.8: 3.5 and 7.5 round up, −7.5 rounds up to −7, and a gain of two saturates. -/
theorem test_section_rounds_half_up :
    sectionOut ⟨2 ^ 27, 2 ^ 27, 0, 0, 0⟩ ⟨0, 0, 0, 0⟩ 7 = 4 ∧ sectionOut ⟨2 ^ 27, 2 ^ 27, 0, 0, 0⟩ ⟨7, 0, 4, 0⟩ 8 = 8 ∧
      sectionOut ⟨2 ^ 27, 2 ^ 27, 0, 0, 0⟩ ⟨-7, 0, -3, 0⟩ (-8) = -7 ∧
      sectionOut ⟨2 ^ 29, 0, 0, 0, 0⟩ ⟨0, 0, 0, 0⟩ 1500000000 = 2147483647 ∧
      squareOf 2147483647 = 70368744112128 := by decide

/-- Section 2.9. -/
theorem test_detectors_after_a_clear :
    detectorStep 128 117187488 0 = 915527 ∧ detectorStep 128 117187488 915527 = 1823901 ∧
      detectorStep 1024 117187488 0 = 114440 ∧ detectorStep 1024 117187488 114440 = 228769 := by decide

def permit : Vector ScheduleEntry 16 :=
  #v[⟨true, 0x1F, 420, 1080, some 7500, some 8500, some 13000⟩, ⟨true, 0x20, 480, 780, some 7000, some 8000, some 12500⟩,
    ⟨true, 0x7F, 0, 420, some 4500, some 5500, none⟩, ⟨true, 0x7F, 1320, 1440, some 4500, some 5500, none⟩,
    ⟨true, 0x7F, 0, 1440, some 6000, some 7000, some 11000⟩, ⟨false, 0, 0, 1440, none, none, none⟩,
    ⟨false, 0, 0, 1440, none, none, none⟩, ⟨false, 0, 0, 1440, none, none, none⟩, ⟨false, 0, 0, 1440, none, none, none⟩,
    ⟨false, 0, 0, 1440, none, none, none⟩, ⟨false, 0, 0, 1440, none, none, none⟩, ⟨false, 0, 0, 1440, none, none, none⟩,
    ⟨false, 0, 0, 1440, none, none, none⟩, ⟨false, 0, 0, 1440, none, none, none⟩, ⟨false, 0, 0, 1440, none, none, none⟩,
    ⟨false, 0, 0, 1440, none, none, none⟩]

/-- Section 4.6: a permit across a week, and the limits of an offset of −300. -/
theorem test_permit_lookups :
    lookup permit ⟨2031, 3, 14, 64740, 0⟩ = .entry 0 ∧ lookup permit ⟨2031, 3, 14, 64800, 0⟩ = .entry 4 ∧
      lookup permit ⟨2031, 3, 14, 79200, 0⟩ = .entry 3 ∧ lookup permit ⟨2031, 3, 15, 0, 0⟩ = .entry 2 ∧
      lookup permit ⟨2031, 3, 15, 28800, 0⟩ = .entry 1 ∧
      effectiveLimits permit (-300) (.entry 3) = ⟨some 4200, some 5200, none⟩ := by decide

/-- Section 4.8: the end of the calendar, a Thursday. -/
theorem test_end_of_calendar :
    dayNumber ⟨2099, 12, 31, 86399, 999⟩ = 36524 ∧ dayOfWeek ⟨2099, 12, 31, 86399, 999⟩ = 3 ∧
      advance ⟨2099, 12, 31, 86399, 999⟩ = ⟨2099, 12, 31, 0, 0⟩ := by decide

/-- Section 5.11: N_nom of interval 413. -/
theorem test_nominal_samples : nominalSamples 300 ⟨2031, 3, 14, 37001, 251⟩ = 9539952 := by decide

/-- Section 5.10, blocks 3, 5 and 6: the guard of 3 blocks after a change, for a gate with polarity high. -/
theorem test_gate_classes :
    (let g := guardAfterSample 3 0 (some false) true
    (g - 1, includedClass .gate true (decide (0 < g)) true)) = (2, .transition) ∧
      includedClass .gate true (decide (0 < guardAfterSample 3 0 (some true) true)) true = .active ∧
      includedClass .gate true false false = .quiet := by decide

/-! ### Sample port and block end -/

def quiet : State :=
  { State.reset with range := .same ⟨4, 0, 120, 0, 0, false, 4, false, 0, 0⟩ }

/-- Section 1.6, frame 10 of block 1000: an immediate step down, and the sample keeps its step. -/
theorem test_sampleFrame_steps_down :
    (after (.sampleFrame 8000000 0 0 0 false 20) quiet).range.get .ch1 = ⟨3, 50, 0, 0, 24, false, 3, false, 0, 1⟩ ∧
      ((after (.sampleFrame 8000000 0 0 0 false 20) quiet).unit.get .ch1).lastValid = 8000000 := by decide

/-- Section 1.8: a gap of 1,250.7 ms gives a stall length of 1250 ms and frame in block 21. -/
theorem test_sampleFrame_resumes :
    (let t := after (.sampleFrame 0 0 0 0 false 1250700)
      { busy with port := { busy.port with stalled := true, frameCounter := 21 } }
    (t.port.frameCounter, t.report.events)) = (22, [⟨none, .powerOn, .inputResumed 1250⟩]) := by decide

/-- Section 1.8: INPUT_STALLED with frame counter 21. -/
theorem test_stallTimeout :
    (after .stallTimeout { busy with port := { busy.port with frameCounter := 21 } }).report.events =
      [⟨none, .powerOn, .inputStalled 21⟩] := by decide

/-- Section 1.6, end of block 1549: the window's peak of 912,000 lets the step rise to 3. -/
theorem test_windowEnd_steps_up :
    (after (.windowEnd .ch1)
        (due allTasks { State.reset with range := .same ⟨2, 0, 499, 912000, 0, false, 2, false, 0, 0⟩ })).range.get
      .ch1 = ⟨3, 50, 0, 0, 24, false, 3, false, 0, 1⟩ := by decide

/-- Section 1.7: a commit of g_max 1 clamps step 4 to 1 with three gain changes. -/
theorem test_commit_clamps :
    (let old : RangeSettings := ⟨0, 4, 7800000, 6000000, 1400000, 500, 50, 24⟩
    let r : RangeCtl := ⟨4, 0, 301, 0, 0, false, 4, false, 0, 0⟩
    (r.commit old { old with gMax := 1 } ⟨0, 1, 2, 3, 4⟩, r.clampCount { old with gMax := 1 })) =
      (⟨1, 50, 0, 0, 24, false, 1, false, 0, 0⟩, 3) := by decide

/-- Section 4.7: the load of a pending time at a block end. -/
theorem test_blockEnd_loads :
    (let t := after .blockEnd (due [.clock]
      { State.reset with
        clock := ⟨true, ⟨2031, 3, 14, 50398, 750⟩, some ⟨2031, 3, 14, 50400, 0⟩, some (.entry 0)⟩ })
    (t.clock.now, t.clock.pendingLoad, t.handed.report.ended, t.handed.report.load)) =
      (⟨2031, 3, 14, 50400, 0⟩, none, ⟨2031, 3, 14, 50398, 751⟩, true) := by decide

/-- A whole block end completes from any order of its free choices: every step is taken. -/
theorem test_blockEnd_whole :
    (let t := (due allTasks State.reset).finishBlock fun _ => 1
    (t.blockWork, t.clock.now.block, t.report.liveCounter, t.alert.flashCounter)) = (none, 1, 1, 2) := by
  decide +kernel

def episode57 : MonitorChan :=
  { MonitorChan.powerOn with
    lmax := some ⟨8500, 1000000, 500000⟩, releaseTime := 1000, phase := .releasing, releaseCounter := 999
    episode := some ⟨57, .powerOn, 1898, 24999999000, 9012, .powerOn, some 1⟩ }

/-- Section 6.7, block 21,899: the episode closes with 1,899 blocks, a maximum of 9012 and an SEL of 8717. -/
theorem test_episodeReleased_closes :
    (let t := after (.episodeReleased .ch1)
      (due [.episode .ch1, .capture .ch1]
        (handed (results 1000 0 400000)
          (withMonitor episode57
            { busy with store := { busy.store with active := { busy.store.active with
                chan := busy.store.active.chan.set .ch1 { busy.store.active.chan.get .ch1 with k := 3000 } } } })))
    (t.report.events, (t.monitor.get .ch1).phase)) =
      ([⟨some .ch1, .powerOn, .episodeClosed
        ⟨57, .ch1, .powerOn, .powerOn, 1899, 9012, .powerOn, 8717, some 1, .released⟩⟩], .idle) := by decide +kernel

/-- Section 6.10, block end 300: at the toggle point FLASH and 50 come into force, and the line is low. -/
theorem test_togglePoint :
    (after .togglePoint (due [.alert] { busy with alert := ⟨.steady, 500, 500, false, some (.flash, 50)⟩ })).alert =
      ⟨.flash, 50, 1, false, none⟩ := by decide

/-- Section 6.9, block 6,000: PEAK with two suppressed, and the hold-off restarts. -/
theorem test_blockEnd_peak :
    (let t := after .blockEnd (due [.peak .ch1] (handed (results 0 500 0)
      (withMonitor { MonitorChan.powerOn with peak := some ⟨-32000, 1⟩, peakHoldOff := 1, peaksSuppressed := 2 } busy)))
    ((t.monitor.get .ch1).peakHoldOff, (t.monitor.get .ch1).peaksSuppressed, t.report.events.length)) =
      (1000, 0, 1) := by decide +kernel

def recordingOne (d : Descriptor) (tail : Option Nat) (s : State) : State :=
  { s with
    capture :=
      { s.capture with
        regions := (s.capture.regions.set 0 (.recording d tail)).set 4 (.ring .ch1) } }

def capture1 : Descriptor := ⟨1, .ch1, 57, 1, .powerOn, 2000, 5898, 1250, false, false, false, 1⟩

/-- Section 7.9: the last tail block brings the length to 5,899 at position 7,148, and the capture is STORED. -/
theorem test_captureTailEnd_stores :
    (let t := after (.captureTailEnd .ch1)
      (due [.capture .ch1] (handed (results 0 0 0) (recordingOne capture1 (some 1) busy)))
    (t.report.events, t.capture.inFlight.map fun o => match o with
      | .write e => (e.region, e.position, e.bytes.length)
      | .read r p => (r, p, 0))) =
      ([⟨some .ch1, .powerOn, .captureStored 0 { capture1 with length := 5899 }⟩], some (0, 7148, 100)) := by decide

/-- Section 7.9: at 10,000 blocks with tail blocks left the capture is STORED with TRUNCATED. -/
theorem test_captureFull_truncates :
    (after (.captureFull .ch1)
        (due [.capture .ch1]
          (handed (results 0 0 0) (recordingOne { capture1 with length := 9999 } (some 501) busy)))).capture.regions[0] =
      .stored { capture1 with length := 10000, truncated := true } := by decide

/-- Section 7.9: the swap at the opening of episode 57. -/
theorem test_blockEnd_opens_capture :
    (let s := { busy with
      nextEpisode := 57
      capture := { busy.capture with rings := busy.capture.rings.set .ch1 ⟨3250, 10000, none⟩ } }
    let t := after .blockEnd (due [.episode .ch1] (handed (results 0 0 9)
      (withMonitor { MonitorChan.powerOn with lmax := some ⟨0, 5, 3⟩ } s)))
    (t.capture.regions[0], t.capture.regions[4], t.nextEpisode)) =
      (.recording ⟨1, .ch1, 57, 1, .powerOn, 2000, 2000, 1250, false, false, false, 1⟩ none, .ring .ch1, 58) := by
  decide +kernel

def check1 : CheckParams := ⟨.ch1, .calibrator, 9400, 100, 5000, true, 0, 0⟩

/-- Section 8.7: the thousandth settling block. -/
theorem test_checkSettled :
    (after .checkSettled (due [.engine] { busy with check := ⟨.settling, some check1, 999, 0, none⟩ })).check =
      ⟨.collecting, some check1, 0, 0, none⟩ := by decide

/-- Section 8.8: the result is PASS with a deviation of 38, and the staged K becomes 2962. -/
theorem test_checkResult :
    (let s := { busy with
      check := ⟨.collecting, some check1, 4999, 657846164448, none⟩
      store := ⟨{ Settings.default with chan := .same ⟨true, 3000, 0, 0, 0, 2000, 10, 50, 90, 80, 300, 1000⟩ },
        { Settings.default with chan := .same ⟨true, 3000, 0, 0, 0, 2000, 10, 50, 90, 80, 300, 1000⟩ }, false⟩ }
    let t := after .checkResult (due [.engine] (handed (results 131595552 0 0) s))
    (t.check.last, (t.store.staged.chan.get .ch1).k)) =
      (some ⟨.ch1, .calibrator, .pass, 9438, 9400, some 38, 100, 5000, 5000, .made, 2962⟩, 2962) := by decide +kernel

/-- R166: at the live period a report fills the slot and the counter returns to 0. -/
theorem test_livePoint :
    (let t := after .livePoint
      (due [.live] { busy with report := { busy.report with liveOn := true, liveCounter := 999 } })
    (t.report.liveCounter, t.report.liveSlot.isSome)) = (0, true) := by decide +kernel

/-! ### Link -/

/-- Section 10.9: the frame of SET_ALERT, byte by byte, enters the command queue. -/
theorem test_byteReceived_setAlert :
    (afterAll ([0xA5, 0x03, 0x00, 0x11, 0x05, 0x02, 0xF4, 0x01, 0xF0].map .byteReceived) State.reset).link.queue =
      [⟨0x11, 5, [0x02, 0xF4, 0x01]⟩] ∧ frameBytes 0x11 5 [0x02, 0xF4, 0x01] =
      [0xA5, 0x03, 0x00, 0x11, 0x05, 0x02, 0xF4, 0x01, 0xF0] := by decide

/-- Section 10.9: F5h in place of F4h fails the check, and FRAME_RECEIVED counts it. -/
theorem test_frameReceived_counts_errors :
    (afterAll ([0xA5, 0x03, 0x00, 0x11, 0x05, 0x02, 0xF5, 0x01].map .byteReceived ++ [.frameReceived 0xF0])
      State.reset).link = { State.reset.link with checkErrors := 1 } := by decide

/-- Section 10.9: a pause after the tag abandons the frame. -/
theorem test_receiveTimeout :
    (afterAll ([0xA5, 0x03, 0x00, 0x11, 0x05].map .byteReceived ++ [.receiveTimeout]) State.reset).link =
      { State.reset.link with timeouts := 1 } := by decide

/-- Section 10.9: the reply of SET_ALERT has kind 91h, tag 05h and body 00h F4h 01h, and its frame ends with 72h. -/
theorem test_setAlert :
    (let t := after (.setAlert 5 [0x02, 0xF4, 0x01]) State.reset
    (t.alert.pendingSetting, t.report.sending)) = (some (.flash, 500), some ⟨0x91, 5, [0x00, 0xF4, 0x01]⟩) ∧
      (frameBytes 0x91 5 [0x00, 0xF4, 0x01]).getLast? = some 0x72 := by decide

/-- R177: kind 00h is answered in kind 80h with UNKNOWN_KIND. -/
theorem test_unknownKind :
    (after (.unknownKind 0 7 [1, 2]) State.reset).report.sending = some ⟨0x80, 7, [1]⟩ := by decide

/-- R178: RALIOR AM4, issue 1, rate code 3. -/
theorem test_ident_after_powerOnReset :
    (afterAll [.powerOnReset true true, .ident 1 []] State.reset).report.sending =
      some ⟨0x81, 1, [0, 0x52, 0x41, 0x4C, 0x49, 0x4F, 0x52, 0x20, 0x41, 0x4D, 0x34, 1, 3]⟩ := by decide

/-- R179: the STATUS reply is 112 bytes, and its last byte is the rate code. -/
theorem test_status :
    ((after (.status 1 []) State.reset).report.sending.map fun m => (m.body.length, m.body.getLast?)) =
      some (112, some 0) := by decide

/-- Section 4.7: SET_TIME of 2031-03-14, 14:00:00.000. -/
theorem test_setTime :
    (after (.setTime 1 [0xEF, 0x07, 3, 14, 0xE0, 0xC4, 0, 0, 0, 0]) State.reset).clock.pendingLoad =
      some ⟨2031, 3, 14, 50400, 0⟩ := by decide

/-- R61: February 30 is refused. -/
theorem test_setTime_refuses :
    (after (.setTime 1 [0xEF, 0x07, 2, 30, 0, 0, 0, 0, 0, 0]) State.reset).report.sending = some ⟨0x84, 1, [3]⟩ := by
  decide

/-- R87, R88: HOLD and RESUME are refused in UNTIMED with WRONG_STATE. -/
theorem test_hold_and_resume_untimed :
    (after (.hold 1 []) State.reset).report.sending = some ⟨0x85, 1, [4]⟩ ∧
      (after (.resume 1 []) State.reset).report.sending = some ⟨0x86, 1, [4]⟩ := by decide

def measuring : State := { State.reset with acc := { State.reset.acc with phase := .measuring } }

/-- R87, R88: in MEASURING, HOLD sets hold pending and RESUME cancels it. -/
theorem test_hold_then_resume :
    (afterAll [.hold 1 []] measuring).acc.holdPending = true ∧
      (afterAll [.hold 1 [], .resume 2 []] measuring).acc.holdPending = false := by decide

/-- R76: EDIT_CHANNEL of channel 3 with K −200. -/
theorem test_editChannel :
    ((after (.editChannel 1 [3, 1, 0x38, 0xFF, 0, 0, 0, 0, 0xD0, 0x07, 10, 50, 90, 80, 0x2C, 0x01, 0xE8, 0x03])
      State.reset).store.staged.chan.get .ch3).k = -200 := by decide

/-- R18: T_hi must be above four times T_lo. -/
theorem test_editRange_refuses :
    (after (.editRange 1 [1, 0, 4, 0x40, 0x42, 0x0F, 0, 0x40, 0x42, 0x0F, 0, 0x90, 0xD0, 0x03, 0, 0xF4, 1, 50, 0, 24])
      State.reset).report.sending = some ⟨0x88, 1, [3]⟩ := by decide

/-- R19. -/
theorem test_editGainCodes :
    (after (.editGainCodes 1 [2, 15, 7, 3, 1, 0]) State.reset).store.staged.codes.get .ch2 = ⟨15, 7, 3, 1, 0⟩ := by
  decide

/-- R28: b1 of section 2 of W3 as −1. -/
theorem test_editWeighting :
    (after (.editWeighting 1 ([3, 2, 0, 0, 0, 16, 0xFF, 0xFF, 0xFF, 0xFF] ++ List.replicate 12 0))
      State.reset).store.staged.w3.second = ⟨2 ^ 28, -1, 0, 0, 0⟩ := by decide

/-- R65: entry 15 from 07:00 to 18:00 with a Leq limit alone. -/
theorem test_editLimits :
    (after (.editLimits 1 [15, 1, 0x1F, 0xA4, 0x01, 0x38, 0x04, 1, 0x4C, 0x1D, 0, 0xFF, 0xFF, 0, 0, 0])
      State.reset).store.staged.schedule[15] = ⟨true, 0x1F, 420, 1080, some 7500, none, none⟩ := by decide

/-- R77: base 60 and factor 5; base 5 is refused. -/
theorem test_editInterval :
    (after (.editInterval 1 [60, 5]) State.reset).store.staged.intervalSeconds = 300 ∧
      (after (.editInterval 1 [5, 5]) State.reset).report.sending = some ⟨0x8C, 1, [3]⟩ := by decide

/-- R78: STRIKE, polarity low and a guard of 5000. -/
theorem test_editActivity :
    (let x := (after (.editActivity 1 [2, 0, 0x88, 0x13]) State.reset).store.staged
    (x.mode, x.polarityHigh, x.guardLength)) = (.strike, false, 5000) := by decide

/-- R79, R81: in UNTIMED a commit is applied at once. -/
theorem test_commit_at_once :
    (let t := afterAll [.editInterval 1 [1, 5], .commit 2 []] State.reset
    (t.store.active.base, t.store.commitPending, t.acc.carriedConfig)) = (1, false, true) := by decide

/-- R80: DISCARD throws a staged edit away. -/
theorem test_discard :
    (afterAll [.editInterval 1 [1, 5], .discard 2 []] State.reset).store.staged.base = 60 := by decide

/-- R184: both copies of the general group. -/
theorem test_readSettings :
    (after (.readSettings 1 [0]) State.reset).report.sending =
      some ⟨0x90, 1, [0, 0, 0, 60, 15, 0, 1, 0xD0, 0x07, 60, 15, 0, 1, 0xD0, 0x07]⟩ := by decide

/-- R140: lengths are clamped and answered. -/
theorem test_setCapture :
    (after (.setCapture 1 [1, 0xFF, 0xFF, 0xFF, 0xFF]) State.reset).report.sending =
      some ⟨0x92, 1, [0, 0xD0, 0x07, 0x88, 0x13]⟩ := by decide

/-- R170: EVENT on, all masks on, live period 0 clamped to 100, items 1 and 8. -/
theorem test_setReporting :
    (let q := (after (.setReporting 1 [1, 0xFF, 0x7F, 0x0F, 0, 0, 2, 1, 8, 0, 0, 0, 0, 0, 0]) State.reset).report
    (q.eventOn, q.livePeriod, q.items, q.sending)) = (true, 100, [.fLevel, .siteSoFar], some ⟨0x93, 1, [0, 100, 0]⟩) := by
  decide

/-- R168: a snapshot of four items is 50 bytes after its status. -/
theorem test_snapshot :
    ((after (.snapshot 1 []) State.reset).report.sending.map fun m => m.body.length) = some 50 := by decide +kernel

/-- R99, R165: with nothing stored both answer EMPTY. -/
theorem test_reads_empty :
    (after (.readRecord 1 []) State.reset).report.sending = some ⟨0x95, 1, [5]⟩ ∧
      (after (.readEvent 1 []) State.reset).report.sending = some ⟨0x96, 1, [5]⟩ := by decide

/-- Section 9.9: 33 offers lose one, and the next notice carries lost-before 1. -/
theorem test_readEvent_lost_before :
    ((after (.readEvent 1 []) ((List.range 33).foldl
      (fun s n => s.offer none .powerOn (.inputStalled n)) State.reset)).report.sending.map fun m =>
        (m.body.getD 13 0, m.body.getD 14 0)) = some (1, 1) := by decide +kernel

/-- R184: four rings in regions 0 to 3 and no capture. -/
theorem test_listCaptures :
    (after (.listCaptures 1 []) State.reset).report.sending =
      some ⟨0x97, 1, [0, 0, 0, 0xD0, 0x07, 0xD0, 0x07, 0, 0, 0, 0, 0, 1, 0, 0, 0, 0, 2, 0, 0, 0, 0, 3, 0, 0, 0, 0, 0]⟩ := by
  decide

def stored : State :=
  { State.reset with
    capture := { State.reset.capture with
      regions := State.reset.capture.regions.set 5 (.stored { capture1 with id := 12, length := 9, start := 9999 }) } }

/-- R141: a read of one block at position 9,999 forms a reply of 106 bytes when it completes. -/
theorem test_readCapture :
    (let t := after (.readCapture 4 [12, 0, 0, 0, 1]) stored
    (t.capture.inFlight, t.report.reserved)) = (some (.read 5 9999), 1) ∧
      ((afterAll [.readCapture 4 [12, 0, 0, 0, 1], .memoryReadDone] stored).report.sending.map fun m =>
        (m.kind, m.tag, m.body.length)) = some (0x98, 4, 106) := by decide +kernel

/-- R142: a STORED capture is released; another id is NOT_FOUND. -/
theorem test_releaseCapture :
    (after (.releaseCapture 1 [12, 0]) stored).capture.regions[5] = .free ∧
      (after (.releaseCapture 1 [13, 0]) stored).report.sending = some ⟨0x99, 1, [6]⟩ := by
  decide +kernel

/-- R144, R145: with nothing to drain the memory is LENT at once; it is reclaimed with the rings empty. -/
theorem test_lend_and_reclaim :
    (after (.lendMemory 1 []) State.reset).capture.lend = .lent ∧
      (afterAll [.lendMemory 1 [], .transmitComplete, .reclaimMemory 2 []] State.reset).capture.lend = .owned := by
  decide

def writing : State :=
  { State.reset with
    capture := { State.reset.capture with inFlight := some (.write ⟨2, 3, [0xAB, 0, 0xCD]⟩) } }

/-- R126, R138: the bytes stand from 2 × 1,000,000 + 300 on. -/
theorem test_memoryWriteDone : (after .memoryWriteDone writing).memory = [(2000300, 0xAB), (2000302, 0xCD)] := by decide

/-- R148, R149: START_CHECK freezes its channel; ABORT_CHECK ends it with ABORTED. -/
theorem test_start_and_abort :
    (let t := after (.startCheck 1 [2, 1, 0, 0, 10, 0, 0xE8, 0x03, 0, 0xA0, 0x86, 0x01, 0, 3]) State.reset
    (t.check.phase, (t.range.get .ch2).frozen)) = (.settling, true) ∧
      ((afterAll [.startCheck 1 [2, 1, 0, 0, 10, 0, 0xE8, 0x03, 0, 0xA0, 0x86, 0x01, 0, 3], .abortCheck 2 []]
        State.reset).check.last.map fun r => (r.result, r.blocksMeasured)) = some (.aborted, 0) := by decide

/-- R72, R180: after a soft reset with the clock set an opening is pending. -/
theorem test_softReset :
    (let t := after (.softReset 1 []) { State.reset with clock := { State.reset.clock with isSet := true } }
    (t.acc.phase, t.acc.openingPending, t.report.sending)) = (.measuring, true, some ⟨0x83, 1, [0]⟩) := by decide

/-- R169, R181: an event goes before the live report. -/
theorem test_transmitComplete :
    (let q := (after .transmitComplete
      { busy with report := { busy.report with eventOn := true, events := [⟨none, .powerOn, .memoryLent⟩] } }).report
    (q.events, q.sending.map (·.kind))) = ([], some 0x70) := by decide

/-! ### The memory port and the record FIFO -/

/-- Section 7.11, as the port is left when a write has just completed: one entry waits, and READ_CAPTURE of id 12. -/
def underRead : State :=
  State.arbitrate
    { stored with
      capture :=
        { stored.capture with
          buffer := [⟨2, 0, []⟩], job := some ⟨7, 12, 5, 9000, 0, 2, []⟩ } }

/-- The entries in the buffer, and whether a write or a read is in flight. -/
def portLine (s : State) : Nat × Option Bool :=
  (s.capture.buffer.length, s.capture.inFlight.map fun o => match o with
    | .write _ => true
    | .read _ _ => false)

/-- Section 7.11, as three blocks of a block end have been offered. -/
def offered : State :=
  { underRead with capture := ((underRead.capture.push ⟨0, 0, []⟩).push ⟨3, 0, []⟩).push ⟨1, 0, []⟩ }

/-- Section 7.11: the port's steps one after another; the fifth block finds no room. -/
theorem test_port_under_a_read :
    portLine underRead = (1, some false) ∧ portLine offered = (4, some false) ∧ offered.capture.accepts = false ∧
      portLine (afterAll [.memoryReadDone] offered) = (3, some true) ∧
      portLine (afterAll [.memoryReadDone, .memoryWriteDone] offered) = (2, some true) ∧
      portLine (afterAll [.memoryReadDone, .memoryWriteDone, .memoryWriteDone] offered) = (2, some false) ∧
      portLine (afterAll [.memoryReadDone, .memoryWriteDone, .memoryWriteDone, .memoryReadDone] offered) =
        (1, some true) ∧
      (afterAll [.memoryReadDone, .memoryWriteDone, .memoryWriteDone, .memoryReadDone] offered).capture.job = none := by
  decide +kernel

def record1 (number : Nat) : IntervalRecord :=
  ⟨number, .ch1, .powerOn, .powerOn, .aligned, .noEntry, ⟨none, none, none⟩, 0, 0, 0, 0, 0, 0, 0, 0, 0, 0, 0, 0, 0, 0, 0, 0,
    0, 0, 0, 0, 0, 0, 0, 0, 0, 0, 0, 0, 0, 0⟩

/-- Section 5.12: with 128 records the oldest leaves and RECORDS_LOST names it. -/
theorem test_record_fifo_full :
    (let t := State.putRecord { busy with fifo := record1 1 :: List.replicate 127 (record1 2) } .powerOn (record1 33)
    (t.fifo.length, t.recordsLost, t.report.events)) =
      (128, 1, [⟨none, .powerOn, .recordsLost 1 .ch1 1⟩]) := by decide +kernel

/-! ### Witnesses: concrete states and operands that meet the hypotheses of the statements -/

/-- A command at the front of the queue. -/
def fed : State := { State.reset with pending := [.byteReceived 0xA5] }

/-- These commands wait in the command queue of the link, with these replies waiting. -/
def queued (cmds : List Command) (replies : List Message) : State :=
  { busy with link := { busy.link with queue := cmds }, report := { busy.report with replies } }

/-- A command of the environment; none with a link command that can begin, one that finds four replies, and no command. -/
theorem witness_StepTakesFrontCommand :
    fed.pending = [.byteReceived 0xA5] ∧
      (let s := queued [⟨1, 9, []⟩, ⟨2, 10, []⟩] []
      s.pending = [] ∧ s.link.queue = [⟨1, 9, []⟩, ⟨2, 10, []⟩] ∧ s.capture.job = none ∧ s.report.replies.length < 4) ∧
      (let s := queued [⟨1, 9, []⟩] (List.replicate 4 ⟨0x81, 0, []⟩)
      s.pending = [] ∧ 4 ≤ s.report.replies.length) ∧
      State.reset.pending = [] ∧ State.reset.link.queue = [] := by decide

/-- R176: with nothing from outside the oldest command begins; with four replies waiting it stays, until one is sent. -/
theorem test_step_begins_oldest :
    (match step (queued [⟨1, 9, []⟩, ⟨2, 10, []⟩] []) with
      | .next t => (t.link.queue, t.report.replies.map (·.tag))
      | _ => ([], [])) = ([⟨2, 10, []⟩], [9]) ∧
    step (queued [⟨1, 9, []⟩] (List.replicate 4 ⟨0x81, 0, []⟩)) =
      .next (queued [⟨1, 9, []⟩] (List.replicate 4 ⟨0x81, 0, []⟩)) ∧
    (match step (after .transmitComplete (queued [⟨1, 9, []⟩] (List.replicate 4 ⟨0x81, 0, []⟩))) with
      | .next t => (t.link.queue, t.report.replies.map (·.tag))
      | _ => ([], [])) = ([], [0, 0, 0, 9]) := by
  refine ⟨by decide, rfl, by decide⟩

/-- R175, R176: a command that cannot begin enters the queue behind the older one, and a fifth is an overrun. -/
theorem test_command_waits :
    (after (.ident 9 []) (queued [⟨2, 10, []⟩] [])).link.queue = [⟨2, 10, []⟩, ⟨1, 9, []⟩] ∧
      (after (.ident 9 []) (queued (List.replicate 4 ⟨2, 10, []⟩) [])).link.overruns = 1 ∧
      (after (.ident 9 []) (queued [⟨2, 10, []⟩, ⟨1, 9, []⟩] [])).link.queue = [⟨2, 10, []⟩, ⟨1, 9, []⟩] := by decide

/-- Every setting at its default is legal. -/
theorem default_legal : Settings.default.Legal := by
  refine ⟨.inr (.inr rfl), by decide, by decide, ?_, ?_, ?_, ?_, ?_⟩
  · intro c; cases c <;> decide
  · intro c; cases c <;> decide
  · intro c; cases c <;> decide
  · have h : Coeffs.legal .flat := by unfold Coeffs.legal inSigned32; decide
    exact ⟨⟨h, h, h⟩, ⟨h, h, h⟩, h, h, h⟩
  · intro i
    have h : Settings.default.schedule[i] = ⟨false, 0, 0, 1440, none, none, none⟩ := by simp [Settings.default]
    rw [h]; exact ⟨by decide, by decide, by decide, trivial, trivial, trivial⟩

theorem witness_MemoryHeldByStep : ∃ t, MemoryHeld fed ∧ step fed = .next t := ⟨_, rfl, rfl⟩

theorem witness_SettingsHeldByStep : ∃ t, SettingsHeld fed ∧ step fed = .next t :=
  ⟨_, ⟨default_legal, default_legal⟩, rfl⟩

theorem witness_StoresHeldByStep : ∃ t, StoresHeld fed ∧ step fed = .next t :=
  ⟨_, ⟨by decide, by decide, by decide, by decide, by decide, by decide⟩, rfl⟩

theorem range_held (c : Chan) :
    RangeCtl.Held (fed.store.active.range.get c) (fed.store.active.codes.get c) (fed.range.get c) := by
  cases c <;> exact ⟨by decide, by decide, by decide, by decide, by decide, by decide, by decide, by decide⟩

theorem witness_RangesHeldByStep : ∃ t, RangesHeld fed ∧ step fed = .next t :=
  ⟨_, ⟨⟨default_legal, default_legal⟩, range_held⟩, rfl⟩

theorem rest_legal : FilterPath.rest.legal := by
  have h : SectionState.rest.legal := by unfold SectionState.legal inSigned32; decide
  exact ⟨h, h, h⟩

theorem unit_held (c : Chan) : WeightUnit.Held (fed.unit.get c) (fed.samplesHeld c) := by
  cases c <;>
    exact ⟨rfl, by decide, by decide, by decide, by decide, by decide, rest_legal, rest_legal, by decide, by decide,
      by decide, by decide⟩

theorem witness_UnitsHeldByStep : ∃ t, UnitsHeld fed ∧ step fed = .next t :=
  ⟨_, ⟨by decide, by decide, by decide, fun p h => (by cases h), unit_held⟩, rfl⟩

theorem witness_CountersHeldByStep : ∃ t, (ClockHeld fed ∧ AlertHeld fed ∧ LiveHeld fed) ∧ step fed = .next t :=
  ⟨_, ⟨⟨rfl, fun _ h => by cases h⟩, ⟨by decide, by decide, by decide, fun _ _ h => by cases h⟩,
    ⟨by decide, by decide, by decide, by decide⟩⟩, rfl⟩

theorem witness_MeasurementHeldByStep : ∃ t, MeasurementHeld fed ∧ step fed = .next t :=
  ⟨_, ⟨by decide, by decide, fun c => by cases c <;> decide, fun c => by cases c <;> decide,
    fun c => by cases c <;> decide, fun c => by cases c <;> decide⟩, rfl⟩

theorem no_descriptor (i : Fin 16) : (fed.capture.regions[i]).descriptor = none := by revert i; decide

theorem witness_PositionsHeldByStep : PositionsHeld fed := by
  refine ⟨fun c => ?_, fun i d h => ?_, by decide, fun _ h => (nomatch h), fun _ _ h => (nomatch h)⟩
  · cases c <;> decide
  · rw [no_descriptor i] at h; cases h

theorem witness_RolesAndCheckHeldByStep : ∃ t, RolesHeld fed ∧ CheckHeld fed ∧ step fed = .next t :=
  ⟨_, fun c => by cases c <;> decide, ⟨by decide, by decide, by decide, fun c => by cases c <;> decide⟩, rfl⟩

theorem witness_OnlyPortAndReclaimWriteMemory :
    ∃ t, exec .memoryWriteDone writing = .next t ∧ t.memory ≠ writing.memory := ⟨_, rfl, by decide⟩

/-- A staged edit in UNTIMED. -/
def edited : State := after (.editInterval 1 [1, 5]) State.reset

theorem witness_OnlyCommitChangesActive :
    ∃ t, exec (.commit 2 []) edited = .next t ∧ t.store.active ≠ edited.store.active :=
  ⟨_, rfl, fun h => absurd (congrArg Settings.base h) (by decide)⟩

theorem witness_OnlyBlockEndsMoveClock :
    ∃ t, exec .blockEnd (due [.clock] State.reset) = .next t ∧
      (due [.clock] State.reset).dueSteps.Sublist allTasks ∧ t.clock.now ≠ State.reset.clock.now :=
  ⟨_, rfl, by decide, by decide⟩

/-- An operation in flight at the first position that does not exist. -/
def beyond (op : BufferEntry) : State :=
  { State.reset with capture := { State.reset.capture with inFlight := some (.write { op with position := 10000 }) } }

theorem witness_StopsOnlyOutsideMemory :
    exec .memoryWriteDone (beyond ⟨15, 0, []⟩) = .fault (.outsideCaptureMemory 10000) := rfl

/-- An internal check on channel 2. -/
def internalCheck : State :=
  { quiet with check := ⟨.settling, some ⟨.ch2, .internal, 0, 10, 1000, false, 100000, 3⟩, 0, 0, none⟩ }

/-- The first and the last frame of a block; a settling sample, a plain one and a test value. -/
theorem witness_SampleFrameIsHandled :
    (State.reset.blockWork = none ∧ State.reset.port.stalled = false ∧ State.reset.port.frameCounter = 0 ∧
      0 < (State.reset.range.get .ch1).settling) ∧
    (({ quiet with port := { quiet.port with frameCounter := 47 } } : State).blockWork = none ∧
      (quiet.range.get .ch1).settling = 0 ∧ quiet.check.internalOn .ch1 = none) ∧
    (internalCheck.blockWork = none ∧ (internalCheck.range.get .ch2).settling = 0 ∧
      internalCheck.check.internalOn .ch2 = some ⟨.ch2, .internal, 0, 10, 1000, false, 100000, 3⟩) := by decide

/-- A block end still due, in RUNNING and in STALLED. -/
theorem witness_SampleFrameIsHandled_due (stalled : Bool) :
    let s := due [.clock] { busy with port := { busy.port with stalled } }
    s.blockWork = some [.clock] ∧ s.port.stalled = stalled ∧ ∃ t, exec .blockEnd s = .next t := ⟨rfl, rfl, _, rfl⟩

/-- The transmitter is busy and the event queue has room. -/
theorem busy_takes_events (n : Nat) (h : n ≤ 32) : TakesEvents busy.report n :=
  ⟨rfl, by simpa [busy, State.reset, Config.eventQueueSize] using h, rfl, rfl⟩

theorem witness_FrameResumesStalledInput :
    ∃ s : State, s.blockWork = none ∧ s.port.stalled = true ∧ TakesEvents s.report 1 :=
  ⟨{ busy with port := { busy.port with stalled := true } }, rfl, rfl, busy_takes_events 1 (by decide)⟩

/-- Episode 57 with its capture recording, a check running on channel 1, and this tail length. -/
def disturbed (tail : Nat) : State :=
  let s := withMonitor episode57 (recordingOne capture1 none busy)
  { s with check := ⟨.settling, some check1, 5, 0, none⟩, capture := { s.capture with tailLength := tail } }

theorem disturbed_recording (n : Nat) : (disturbed n).capture.recording .ch1 = some (0, capture1, none) :=
  (by decide : (recordingOne capture1 none busy).capture.recording .ch1 = some (0, capture1, none))

/-- RUNNING with a recorded episode and a running check, both kinds of tail length, and neither; and STALLED. -/
theorem witness_StallClosesAndMarks :
    (∀ n ∈ [0, 2000], (disturbed n).blockWork = none ∧ (disturbed n).port.stalled = false ∧
      Running (disturbed n) check1 ∧ (∃ e, RecordedBy (disturbed n) .ch1 e 0 capture1) ∧
      (disturbed n).capture.tailLength = n ∧ TakesEvents (disturbed n).report 10) ∧
    (busy.blockWork = none ∧ busy.port.stalled = false ∧ ∀ p, ¬Running busy p) ∧
    (∃ s : State, s.blockWork = none ∧ s.port.stalled = true) ∧ ∃ t, exec .blockEnd (due [.clock] busy) = .next t :=
  ⟨fun n _ => ⟨rfl, rfl, ⟨by simp [disturbed], rfl⟩, ⟨_, rfl, disturbed_recording n, rfl⟩, rfl,
      busy_takes_events 10 (by decide)⟩,
    ⟨rfl, rfl, fun p h => absurd rfl h.1⟩, ⟨{ busy with port := { busy.port with stalled := true } }, rfl, rfl⟩, _, rfl⟩

def defaultRange : RangeSettings := ⟨0, 4, 7800000, 6000000, 1400000, 500, 50, 24⟩

/-- A settling sample, a frozen controller, a step down and each reason for none, at T_imm itself. -/
theorem witness_SampleMovesRangeController :
    (∃ r : RangeCtl, 0 < r.settling) ∧ (∃ r : RangeCtl, r.settling = 0 ∧ r.frozen = true) ∧
    (∃ (r : RangeCtl) (x : Int), r.settling = 0 ∧ r.frozen = false ∧ defaultRange.tImm < x.natAbs ∧ r.holdOff = 0 ∧
      defaultRange.gMin < r.gain) ∧
    ∃ (r : RangeCtl) (x : Int), r.settling = 0 ∧ r.frozen = false ∧ x.natAbs = defaultRange.tImm :=
  ⟨⟨⟨0, 0, 0, 0, 24, false, 0, false, 0, 0⟩, by decide⟩, ⟨⟨0, 0, 0, 0, 0, true, 0, false, 0, 0⟩, by decide⟩,
    ⟨⟨4, 0, 0, 0, 0, false, 4, false, 0, 0⟩, -7800001, by decide⟩,
    ⟨⟨4, 0, 0, 0, 0, false, 4, false, 0, 0⟩, 7800000, by decide⟩⟩

/-- The last block end of a window of channel 1, with these hold-off, peak and step. -/
def windowDue (gain holdOff peak : Nat) : State :=
  due allTasks { State.reset with range := .same ⟨gain, holdOff, 499, peak, 0, false, gain, false, 0, 0⟩ }

/-- A running hold-off; a peak just above T_hi, just below T_lo, and at T_lo. -/
theorem witness_WindowEndDecides :
    ∀ s ∈ [windowDue 4 2 0, windowDue 4 1 6000001, windowDue 2 0 1399999, windowDue 2 0 1400000],
      s.blockWork = some allTasks ∧ Task.range .ch1 ∈ allTasks ∧ (s.range.get .ch1).frozen = false ∧
        (s.store.active.range.get .ch1).window ≤ (s.range.get .ch1).windowCounter + 1 := by decide

/-- A frozen controller and one in mid-window at a block end of every step, with no check running and no commit pending. -/
theorem witness_WindowEndDecides_between :
    (∃ s : State, s.blockWork = some allTasks ∧ (s.range.get .ch1).frozen = true) ∧
    (∃ s : State, s.blockWork = some allTasks ∧ (s.range.get .ch1).frozen = false ∧
      (s.range.get .ch1).windowCounter + 1 < (s.store.active.range.get .ch1).window ∧ s.store.commitPending = false ∧
      s.check.phase = .idle) ∧
    allTasks.Nodup ∧ Task.weigh .ch1 ∈ allTasks ∧ Task.boundary ∈ allTasks ∧ Task.weigh .ch1 ∉ [Task.range .ch1] :=
  ⟨⟨due allTasks { State.reset with range := .same ⟨2, 3, 0, 0, 0, true, 2, true, 0, 0⟩ }, rfl, rfl⟩,
    ⟨due allTasks State.reset, rfl, rfl, by decide, rfl, rfl⟩, by decide, by decide, by decide, by decide⟩

/-- Every code of the gain-code table 0 to 4, and a controller above, below and inside the new range. -/
theorem witness_CommitClampsRangeController :
    (defaultRange.valid = true ∧ ({ defaultRange with gMax := 1 } : RangeSettings).valid = true ∧
      ({ defaultRange with gMin := 3 } : RangeSettings).valid = true) ∧
    GainCodes.code ⟨0, 1, 9, 3, 4⟩ 2 ≠ 2 ∧
    RangeCtl.Held defaultRange ⟨0, 1, 2, 3, 4⟩ ⟨2, 50, 499, 8388608, 24, false, 2, false, 0, 0⟩ :=
  ⟨by decide, by decide, by decide, by decide, by decide, by decide, by decide, by decide, by decide, by decide⟩

/-- Section arithmetic at each branch: over, under and within the signed 32-bit range. -/
theorem witness_SectionArithmeticIsExact :
    sectionSum ⟨2 ^ 29, 0, 0, 0, 0⟩ ⟨0, 0, 0, 0⟩ 1500000000 > 2 ^ 31 - 1 ∧
      sectionSum ⟨2 ^ 29, 0, 0, 0, 0⟩ ⟨0, 0, 0, 0⟩ (-1500000000) < -2 ^ 31 ∧
      sectionSum ⟨2 ^ 28, 0, 0, 0, 0⟩ ⟨0, 0, 0, 0⟩ (2 ^ 31 - 256) = 2 ^ 31 - 256 := by decide

/-- Both divisors, a detector above and one below E. -/
theorem witness_DetectorsFollowEnergy :
    (128 = 128 ∨ 128 = 1024) ∧ detectorStep 128 1000 2000 = 1992 ∧ detectorStep 1024 2000 1000 = 1000 ∧
      2000 ≤ 48 * 2 ^ 46 := by decide

/-- A power of ten, and the reference of the peak level. -/
theorem witness_LevelIsRoundedLogarithm :
    0 < 100000 ∧ 0 < 1 ∧ level 0 100000 1 = 5000 ∧ level 7 0 0 = -32768 ∧ peakLevel 0 256 = 0 := by decide +kernel

/-- The bounds of the level statements are met by the worked case of section 3.10, and by the largest energy. -/
theorem witness_LevelFollowsMeanSquare :
    (-10000 ≤ (15000 : Int) ∧ (15000 : Int) ≤ 15000 ∧ 48 ≤ 172800000 ∧ 48 * 2 ^ 46 ≤ 48 * 2 ^ 46) ∧
      level 15000 (48 * 2 ^ 46) 48 = 28847 ∧ level (-10000) 1 172800000 = -18238 := by decide +kernel

/-- Both sides of a threshold, and a threshold of 0. -/
theorem witness_ThresholdsInvertLevels :
    (-32768 : Int) ≤ 7500 ∧ 91175731695 ≤ 2880000 * 2 ^ 46 ∧ budgetOf 3000 7500 2880000 < 91183339182 ∧
      budgetOf 15000 0 48 = 0 := by decide +kernel

/-- The two sides of the test of 300, and a quiet sum of 0. -/
theorem witness_SiteContributionIsDifference :
    (300 : Int) ≤ level 3000 2880000000000 28800000 - level 3000 288000000000 11520000 ∧
      level 3000 2880000000000 28800000 - level 3000 691200000000 11520000 < 300 ∧
      2880000000000 ≤ 28800000 * 2 ^ 46 := by decide +kernel

theorem witness_PercentileReadsRank :
    2000 ≤ 12000 ∧ exampleBins.length = 240 ∧ 0 < 0 + exampleBins.sum + 25 ∧ 0 + ([] : List Nat).sum + 0 = 0 := by
  decide +kernel

/-- A day of each kind: within a month, at its end, at a year's end, and the last of the calendar. -/
theorem witness_NextDayCountsOn :
    ([⟨2000, 2, 28, 0, 0⟩, ⟨2000, 2, 29, 0, 0⟩, ⟨2099, 11, 30, 0, 0⟩, ⟨2098, 12, 31, 86399, 999⟩,
        ⟨2099, 12, 31, 86399, 999⟩] : List Stamp).all (·.valid) = true := by decide

/-- Two instants of one minute, and of two. -/
theorem witness_LookupFindsLowestMatch :
    (⟨2031, 3, 14, 50399, 0⟩ : Stamp).second / 60 = (⟨2031, 3, 14, 50340, 7⟩ : Stamp).second / 60 ∧
      lookup Settings.default.schedule ⟨2031, 3, 14, 50399, 0⟩ = .noEntry := by decide +kernel

theorem witness_NominalSamplesReachBoundary :
    1 ≤ 3600 ∧ (⟨2031, 3, 14, 86399, 999⟩ : Stamp).valid = true ∧ (⟨2031, 3, 14, 0, 0⟩ : Stamp).valid = true := by
  decide

theorem witness_BlockEndAdvancesClock :
    (due allTasks State.reset).blockWork = some allTasks ∧ allTasks.Nodup ∧ Task.clock ∈ allTasks ∧
      Task.weigh .ch4 ∈ allTasks ∧ State.reset.blockWork = none ∧ Task.classify ∈ allTasks ∧
      State.reset.store.commitPending = false := by decide

/-- The steps left at a boundary with this report, in an interval of no channel. -/
def atBoundary (r : ClockReport) (hold commit : Bool) : State :=
  due [.boundary, .alert, .live]
    { busy with
      interval := some ⟨412, .powerOn, .noEntry, 48000, false, false, false, 0, .same none⟩
      acc := { busy.acc with phase := .measuring, holdPending := hold }
      store := { busy.store with commitPending := commit }
      handed := { busy.handed with report := r } }

/-- Each close cause, with and without a hold and a pending commit. -/
theorem witness_BoundaryClosesAndOpens :
    ∀ s ∈ [atBoundary ⟨.powerOn, .powerOn, true, false, false, false, none, 0⟩ false false,
        atBoundary ⟨.powerOn, .powerOn, false, true, true, true, none, 0⟩ true true,
        atBoundary ⟨.powerOn, ⟨2000, 1, 1, 900, 0⟩, false, true, true, false, none, 0⟩ false true,
        atBoundary ⟨.powerOn, ⟨2000, 1, 1, 60, 0⟩, false, true, true, false, some (.entry 1), 0⟩ true false,
        atBoundary ⟨.powerOn, ⟨2000, 1, 1, 60, 0⟩, false, true, true, false, none, 0⟩ false false],
      s.blockWork = some [.boundary, .alert, .live] ∧ s.report.sending.isSome = true ∧ s.interval.isSome = true ∧
        s.fifo.length ≤ 124 := by decide

/-- No interval open: an opening pending in HELD, with and without a hold; the first load; and a load in HELD. -/
theorem witness_BoundaryClosesAndOpens_opening :
    ∀ x ∈ [(MeasState.held, true, false, false), (.held, true, true, false), (.untimed, false, false, true),
        (.untimed, false, true, true), (.held, false, false, true)],
      let s : State :=
        { atBoundary ⟨.powerOn, .powerOn, x.2.2.2, false, false, false, none, 0⟩ x.2.2.1 false with
          interval := none
          acc := { busy.acc with phase := x.1, openingPending := x.2.1, holdPending := x.2.2.1 } }
      s.blockWork = some [.boundary, .alert, .live] ∧ s.report.sending.isSome = true ∧ s.interval = none := by decide

/-- Empty accumulators of channel 1. -/
def emptyAcc : ChannelAcc := .opened ⟨none, none, none⟩ 0 0

/-- An open interval whose channel 1 has gathered this energy. -/
def opened (sum : Nat) (s : State) : State :=
  { s with
    interval :=
      some ⟨7, .powerOn, .noEntry, 2880000, false, false, false, 0, ⟨some { emptyAcc with sum }, none, none, none⟩⟩ }

/-- A full record FIFO, a recorded episode and a running check whose K a pending commit changes, as an interval closes
with these blocks counted. -/
def crowded (hold : Bool) : State :=
  let s := disturbed 0
  let changed := Settings.default.chan.set .ch1 { Settings.default.chan.get .ch1 with k := 1 }
  due [.boundary, .alert, .live]
    { s with
      interval :=
        some ⟨7, .powerOn, .noEntry, 48, false, false, false, 0, ⟨some { emptyAcc with active := 1 }, none, none, none⟩⟩
      acc := { s.acc with phase := .measuring, holdPending := hold }
      fifo := List.replicate 128 (record1 1)
      store := ⟨{ Settings.default with chan := changed }, Settings.default, true⟩
      handed := { s.handed with report := ⟨.powerOn, .powerOn, true, false, false, false, none, 0⟩ } }

theorem witness_BoundaryClosesAndOpens_crowded :
    ∀ hold : Bool,
      ((crowded hold).blockWork = some [.boundary, .alert, .live] ∧ (crowded hold).fifo.length ≤ 128 ∧
        (crowded hold).acc.holdPending = hold ∧ (crowded hold).store.commitPending = true) ∧
      TakesEvents (crowded hold).report 15 ∧ Running (crowded hold) check1 ∧
      ¬Undisturbed (crowded hold).store.active (crowded hold).store.staged check1.chan ∧
      ∃ e, RecordedBy (crowded hold) .ch1 e 0 capture1 := by
  refine fun hold => ⟨⟨rfl, by simp [crowded, due], rfl, rfl⟩, busy_takes_events 15 (by decide),
    ⟨by simp [crowded, due, disturbed], rfl⟩, fun h => ?_, _, rfl, disturbed_recording 0, rfl⟩
  exact absurd h.1 (by simp [crowded, due, check1, Settings.default, Quad.get, Quad.set, Quad.same])

/-- The close block of a recorded episode at the boundary that removes its limit, its capture step still due, with either
kind of tail length; a recording that goes on, and one that the block fills. -/
theorem witness_BoundaryClosesAndOpens_closeBlock (hold : Bool) (n : Nat) :
    ∀ d ∈ [capture1, { capture1 with length := 9999 }],
      let s : State :=
        { crowded hold with
          blockWork := some [.capture .ch1, .boundary, .alert, .live]
          capture := { (recordingOne d none busy).capture with tailLength := n } }
      s.blockWork = some [.capture .ch1, .boundary, .alert, .live] ∧ (∃ e, RecordedBy s .ch1 e 0 d) ∧
        s.capture.closeBlock.get .ch1 = false ∧ s.interval.isSome = true ∧ s.handed.report.load = true ∧
        s.acc.holdPending = hold ∧ Accepts s.capture ∧ s.capture.tailLength = n ∧
        lookup s.store.staged.schedule s.handed.report.reading = .noEntry := by
  have hn : lookup Settings.default.schedule Stamp.powerOn = .noEntry := by decide +kernel
  have hr : ∀ d ∈ [capture1, { capture1 with length := 9999 }],
      (recordingOne d none busy).capture.recording .ch1 = some (0, d, none) ∧ episode57.episode.bind (·.captureId) = some d.id := by
    decide
  intro d hd
  obtain ⟨e, he, hc⟩ := Option.bind_eq_some_iff.1 (hr d hd).2
  exact ⟨rfl, ⟨e, he, (hr d hd).1, hc⟩, rfl, rfl, rfl, rfl, ⟨rfl, Nat.zero_lt_succ _⟩, rfl, hn⟩

/-- A considered block of peak 500 over a threshold of 499, with this hold-off. -/
def peaking (h : Nat) : State :=
  due [.peak .ch1] (handed (results 0 500 0)
    (withMonitor { MonitorChan.powerOn with peak := some ⟨0, 499⟩, peakHoldOff := h } busy))

/-- Both thresholds passed by one block, an absent budget, a peak with the hold-off run out and with it running. -/
theorem witness_BudgetAndPeakSteps :
    (∃ s : State, s.blockWork = some [.budget .ch1] ∧ (s.monitor.get .ch1).budget = some ⟨7500, 100, 80⟩ ∧
      s.accOf .ch1 = some { emptyAcc with sum := 101 } ∧ s.handed.classes.get .ch1 ≠ .excluded ∧
      TakesEvents s.report 2) ∧
    (∃ s : State, s.blockWork = some [.budget .ch1] ∧ (s.monitor.get .ch1).budget = none) ∧
    (∃ s : State, s.blockWork = some [.peak .ch1] ∧ (s.monitor.get .ch1).peak = none) ∧
    (∀ s ∈ [peaking 1, peaking 2], s.blockWork = some [.peak .ch1] ∧ (s.monitor.get .ch1).peak = some ⟨0, 499⟩ ∧
      s.handed.classes.get .ch1 ≠ .excluded ∧ 499 < (s.results .ch1).peak) ∧
    (peaking 1).monitor.get .ch1 ≠ (peaking 2).monitor.get .ch1 ∧ TakesEvents (peaking 1).report 1 :=
  ⟨⟨due [.budget .ch1] (handed (results 0 0 0)
      (withMonitor { MonitorChan.powerOn with budget := some ⟨7500, 100, 80⟩ } (opened 101 busy))), rfl, rfl, rfl,
      by decide, busy_takes_events 2 (by decide)⟩,
    ⟨due [.budget .ch1] busy, rfl, rfl⟩, ⟨due [.peak .ch1] busy, rfl, rfl⟩,
    by decide, by decide, busy_takes_events 1 (by decide)⟩

/-- A considered block just above the episode threshold of channel 1, with this capture controller. -/
def opens (k : Capture) : State :=
  due [.episode .ch1] (handed (results 0 0 6)
    (withMonitor { MonitorChan.powerOn with lmax := some ⟨0, 5, 3⟩ } { busy with capture := k }))

theorem opens_meets (k : Capture) :
    (opens k).blockWork = some [.episode .ch1] ∧ ((opens k).monitor.get .ch1).episode = none ∧
      ((opens k).monitor.get .ch1).lmax = some ⟨0, 5, 3⟩ ∧ (opens k).handed.classes.get .ch1 ≠ .excluded ∧
      ((opens k).results .ch1).fSettled = true ∧ 5 < ((opens k).results .ch1).yF ∧ TakesEvents (opens k).report 2 :=
  ⟨rfl, rfl, rfl, by simp [opens, due, handed, Quad.get, Quad.same], rfl, by
    simp [opens, due, handed, State.results, State.setResults, Quad.set, Quad.get, results],
    busy_takes_events 2 (by decide)⟩

/-- Every region taken, with this protect setting. -/
def fullMemory (protect : Bool) : Capture :=
  { busy.capture with
    protect
    regions := Vector.ofFn fun i : Fin 16 =>
      if i < 4 then busy.capture.regions[i] else .stored { capture1 with id := i, age := i - 3 } }

/-- A merge into region 0, a swap into region 4, a lent memory, and a full memory with captures 2 to 13 stored. -/
theorem witness_EpisodeOpensWithCapture :
    (recordingOne capture1 (some 3) busy).capture.regions[0] = .recording capture1 (some 3) ∧
    (busy.capture.lend = .owned ∧ busy.capture.regions[4] = .free ∧ busy.capture.ringRegion .ch1 = some 0 ∧
      ∀ j : Fin 16, j < 4 → busy.capture.regions[j] ≠ .free) ∧
    (∃ k : Capture, k.lend = .lent ∧ k.recording .ch1 = none) ∧
    ∀ k ∈ [fullMemory true, fullMemory false], k.lend = .owned ∧ k.job = none ∧ k.recording .ch1 = none ∧
      (∀ j : Fin 16, k.regions[j] ≠ .free) ∧ k.regions[4] = .stored { capture1 with id := 4, age := 1 } :=
  ⟨by decide, by decide, ⟨{ busy.capture with lend := .lent }, rfl, by decide⟩, by decide +kernel⟩

/-- The oldest capture of a full memory is being read, so the second oldest is the one; and the next capture id is held. -/
theorem witness_EpisodeOpensWithCapture_read :
    let k := { fullMemory false with job := some ⟨0, 4, 4, 0, 0, 1, []⟩, nextId := 6 }
    (k.regions[4] = .stored { capture1 with id := 4, age := 1 } ∧ k.job.map (·.id) = some 4) ∧
      k.regions[5] = .stored { capture1 with id := 5, age := 2 } ∧
      k.regions[6] = .stored { capture1 with id := 6, age := 3 } := by decide +kernel

/-- The discard of the second oldest: its region is the new ring, the third oldest moves up, and id 16 is the first free. -/
theorem test_discard_passes_over_the_read :
    (let t := after .blockEnd (opens { fullMemory false with job := some ⟨0, 4, 4, 0, 0, 1, []⟩, nextId := 6 })
    (t.capture.regions[5], (t.capture.regions[6].descriptor.map (·.age)),
      (t.capture.regions[0].descriptor.map fun d => (d.id, d.age)), t.capture.nextId)) =
      (.ring .ch1, some 2, some (16, 12), 17) := by decide +kernel

/-- A maximum that exists, and the one of an empty accumulator that does not. -/
theorem witness_RecordCarriesFlags :
    ({ emptyAcc with maxF := some 5, maxPeak := some 256 } : ChannelAcc).maxF = some 5 ∧ emptyAcc.maxF = none ∧
      emptyAcc.maxPeak = none := by decide

/-- Extremes that exist, a percentile's channel settings, and a budget absent, of 0 and above 0. -/
theorem witness_RecordCarriesFlags_fields :
    (let ac := { emptyAcc with minF := some 5, maxS := some 7, sum := 1 }
    ac.minF = some 5 ∧ ac.maxS = some 7 ∧ emptyAcc.minF = none ∧ emptyAcc.maxS = none) ∧
    ([none, some ⟨0, 0, 0⟩, some ⟨7500, 100, 80⟩] : List (Option BudgetThreshold)).map (·.map (·.b)) =
      [none, some 0, some 100] := by decide

/-- A block added with no boundary at its end. -/
theorem witness_RecordCarriesFlags_block :
    let l := [Task.clock, .classify, .accumulate, .boundary]
    let s := due l (opened 5 busy)
    s.blockWork = some l ∧ l.Nodup ∧ Task.accumulate ∈ l ∧ s.interval.isSome = true ∧
      NoBoundary { s with handed := (after .blockEnd s).handed } := by unfold NoBoundary; decide

/-- The cases of a block added: excluded, active, quiet and transition; settled or not; the hundredth sample below, in and
above the regular bins. -/
theorem witness_BlockAdded :
    level 0 48 48 = 0 ∧ (0 : Int) < (2000 : Nat) ∧ level 0 (48 * 10 ^ 14) 48 = 14000 ∧ level 0 (48 * 10 ^ 3) 48 = 3000 ∧
      100 ≤ ({ emptyAcc with samplingCounter := 99 } : ChannelAcc).samplingCounter + 1 := by decide +kernel

/-- The release of episode 57 with its capture recording, and a block that releases nothing. -/
theorem witness_EpisodeReleasedCloses :
    (∃ s : State, Ready s (.episode .ch1) [.episode .ch1, .capture .ch1] ∧
      s.monitor.get .ch1 = episode57 ∧ s.handed.classes.get .ch1 ≠ .excluded ∧
      (s.results .ch1).yF = 500000 ∧ TakesEvents s.report 1 ∧ s.capture.recording .ch1 = some (0, capture1, none)) ∧
    ∃ s : State, Ready s (.episode .ch1) [.episode .ch1] ∧ s.monitor.get .ch1 = episode57 ∧
      (s.results .ch1).yF = 500001 :=
  ⟨⟨due [.episode .ch1, .capture .ch1] (handed (results 0 0 500000)
      (withMonitor episode57 (recordingOne capture1 none busy))), ⟨rfl, by decide, by decide⟩, rfl, by decide, rfl,
      busy_takes_events 1 (by decide), by decide⟩,
    ⟨due [.episode .ch1] (handed (results 0 0 500001) (withMonitor episode57 busy)), ⟨rfl, by decide, by decide⟩, rfl,
      rfl⟩⟩

/-- An episode in each state of its machine, released or not, and IDLE, at a block end with no boundary. -/
theorem witness_EpisodeReleasedCloses_machine :
    (∀ m ∈ [episode57, { episode57 with phase := .opened, releaseCounter := 0 }, { episode57 with releaseCounter := 5 },
        { episode57 with lmax := none }, { episode57 with phase := .idle, releaseCounter := 0, episode := none }],
      let l := [Task.clock, .episode .ch1, .boundary]
      let s := due l (handed (results 0 0 500000) (withMonitor m busy))
      s.blockWork = some l ∧ l.Nodup ∧ Task.episode .ch1 ∈ l ∧ s.handed.classes.get .ch1 ≠ .excluded ∧
        (s.results .ch1).fSettled = true) ∧
    NoBoundary (due [.clock, .episode .ch1, .boundary] busy) := by
  constructor
  · decide
  · unfold NoBoundary; decide

theorem witness_AlertLineToggles :
    (∃ s : State, s.blockWork = some allTasks ∧ allTasks.Nodup ∧ Task.alert ∈ allTasks ∧
      s.alert.flashCounter = s.alert.halfPeriod) ∧
    ∃ s : State, s.blockWork = some [.alert] ∧ s.alert.flashCounter ≠ s.alert.halfPeriod :=
  ⟨⟨due allTasks { busy with alert := ⟨.flash, 50, 50, true, none⟩ }, rfl, by decide, by decide, rfl⟩,
    ⟨due [.alert] busy, rfl, by decide⟩⟩

/-- The last tail block dropped and not offered, the close block with a tail of 0, one and more, and the close block that
makes 10,000; and a close block that finds no room. -/
theorem witness_CaptureStepEndsRecording_unaccepted :
    ∀ x ∈ [(LendState.owned, 4, false, some 1, 9), (.lent, 0, false, some 1, 9999), (.owned, 0, true, some 0, 9),
        (.owned, 0, true, some 1, 9), (.owned, 0, true, some 2000, 9999), (.owned, 4, true, some 0, 9999)],
      let d := { capture1 with length := x.2.2.2.2 }
      let s := recordingOne d x.2.2.2.1 busy
      let s := due [.capture .ch1] { s with
        capture := { s.capture with
          lend := x.1, buffer := List.replicate x.2.1 ⟨1, 0, []⟩, closeBlock := .same x.2.2.1 } }
      (s.blockWork = some [.capture .ch1] ∧ ∀ u ∈ [Task.capture .ch1], u.before (.capture .ch1) = false) ∧
        s.capture.recording .ch1 = some (0, d, x.2.2.2.1) := by decide

/-- A last tail block, the block that makes 10,000, and a recording that goes on. -/
theorem witness_CaptureStepEndsRecording :
    ∀ x ∈ [(capture1, some 1), ({ capture1 with length := 9999 }, some 2), (capture1, none), (capture1, some 2)],
      let s := due [.capture .ch1] (handed (results 0 0 0) (recordingOne x.1 x.2 busy))
      (s.blockWork = some [.capture .ch1] ∧ ∀ u ∈ [Task.capture .ch1], u.before (.capture .ch1) = false) ∧
        s.capture.recording .ch1 = some (0, x.1, x.2) ∧ s.capture.closeBlock.get .ch1 = false ∧
        s.capture.lend = .owned ∧ s.capture.buffer.length < 4 := by decide

/-- Room, a full buffer and a lending memory, for a recording and for a ring. -/
theorem witness_CaptureStepKeepsBlocks :
    ∀ s ∈ [busy, { busy with capture := { busy.capture with buffer := List.replicate 4 ⟨1, 0, []⟩ } },
        { busy with capture := { busy.capture with lend := .lending } }],
      (s.capture.recording .ch1 = none ∧ s.capture.ringRegion .ch1 = some 0) ∧
      ∀ n ∈ [0, 1, 2], (recordingOne capture1 (some n) s).capture.recording .ch1 = some (0, capture1, some n) := by
  decide

/-- The thousandth settling block, the last measured block, an overload block, and no check. -/
theorem witness_CheckSettlesAndEnds :
    (∀ e ∈ ([⟨.settling, some check1, 999, 0, none⟩, ⟨.collecting, some check1, 4999, 657846164448, none⟩,
          ⟨.idle, none, 0, 0, none⟩] : List CheckEngine),
      (due [.engine] { busy with check := e }).blockWork = some [.engine] ∧
        ∀ u ∈ [Task.engine], u.before .engine = false) ∧
    (∃ s : State, s.blockWork = some [.engine] ∧ s.check.phase ≠ .idle ∧ s.check.params = some check1 ∧
      (s.results .ch1).overload = true) :=
  ⟨by decide, due [.engine]
    { handed { results 0 0 0 with overload := true } busy with check := ⟨.settling, some check1, 3, 0, none⟩ }, rfl,
    by decide, rfl, rfl⟩

/-- A settling block, a collected block short of the measure time and an overload, in a due list with the boundary and no
commit pending. -/
theorem witness_CheckSettlesAndEnds_counting :
    ∀ e ∈ ([⟨.settling, some check1, 3, 0, none⟩, ⟨.collecting, some check1, 3200, 7, none⟩] : List CheckEngine),
      let l := [Task.engine, .boundary]
      let s := due l { busy with check := e }
      s.blockWork = some l ∧ l.Nodup ∧ Task.engine ∈ l ∧ s.store.commitPending = false ∧
        s.check.params = some check1 ∧ e.counter + 1 < 1000 + e.sum * 500 := by decide

theorem witness_LivePointFormsReport :
    ∃ s : State, s.blockWork = some allTasks ∧ allTasks.Nodup ∧ Task.live ∈ allTasks ∧ s.report.liveOn = true ∧
      s.report.livePeriod ≤ s.report.liveCounter + 1 ∧ s.report.sending.isSome = true :=
  ⟨due allTasks { busy with report := { busy.report with liveOn := true, liveCounter := 999 } }, rfl, by decide,
    by decide, rfl, by decide, rfl⟩

/-! #### Commands -/

/-- On an empty command queue any command begins after reset. -/
theorem begins_at_reset (cmd : Command) : Begins State.reset cmd [] := ⟨rfl, rfl, Nat.zero_lt_succ _, .inr ⟨rfl, rfl⟩⟩

/-- It begins as the oldest one too. -/
theorem begins_queued (cmd : Command) (rest : List Command) :
    Begins { State.reset with link := { State.reset.link with queue := cmd :: rest } } cmd rest :=
  ⟨rfl, rfl, Nat.zero_lt_succ _, .inl rfl⟩

/-- It begins in any state that has no block end begun, no command in execution and an empty queue. -/
theorem begins_idle (s : State) (cmd : Command) (hb : s.blockWork = none) (hj : s.capture.job = none)
    (hr : s.report.replies = []) (hq : s.link.queue = []) : Begins s cmd [] :=
  ⟨by simp [State.blockEndBegun, hb], hj, by simp [hr, Config.replyQueueSize], .inr ⟨hq, rfl⟩⟩

theorem witness_ReceiverTakesWholeFrame :
    ([] : List Byte).length ≤ 1000 ∧ (List.replicate 1000 (0 : Byte)).length ≤ 1000 ∧
      State.reset.blockEndBegun = false ∧ State.reset.link.receiver = .hunt ∧ State.reset.link.queue.length < 4 ∧
      (let s : State := { State.reset with link := { State.reset.link with queue := List.replicate 4 ⟨1, 0, []⟩ } }
      s.blockEndBegun = false ∧ s.link.receiver = .hunt ∧ 4 ≤ s.link.queue.length) := by
  decide +kernel

theorem witness_ReceiverFollowsItsTable :
    (after (.byteReceived 0xA5) State.reset).blockEndBegun = false ∧
      (after (.byteReceived 0xA5) State.reset).link.receiver = .length none 0 := by decide

theorem witness_TransmitCompleteSelects :
    busy.blockEndBegun = false ∧ busy.report.sending.isSome = true ∧ State.reset.report.sending = none := by decide

/-- An event passed and barred by each mask, of no channel and of channel 4; a queue with room and a full one. -/
theorem witness_TransmitCompleteSelects_event :
    (State.reset.report.passes (some .ch4) .memoryLent = true ∧
      ({ State.reset.report with kindMask := 0x77FF } : ReportQueue).passes none .memoryLent = false ∧
      ({ State.reset.report with chanMask := 7 } : ReportQueue).passes (some .ch4) .memoryLent = false) ∧
    State.reset.report.events.length < 32 ∧
    32 ≤ ({ State.reset.report with events := List.replicate 32 ⟨none, .powerOn, .memoryLent⟩ } : ReportQueue).events.length := by
  decide

/-- A command that waits behind another: in the queue already, not yet there, and not there with the queue full. -/
theorem witness_CommandsWaitOrAreRefused_waits :
    ∀ q ∈ [[⟨2, 0, []⟩, ⟨1, 0, []⟩], [⟨2, 0, []⟩], List.replicate 4 (⟨2, 0, []⟩ : Command)],
      let s := queued q []
      s.blockEndBegun = false ∧ s.link.queue.head? = some ⟨2, 0, []⟩ ∧ (⟨2, 0, []⟩ : Command) ≠ ⟨1, 0, []⟩ := by decide

/-- Wrong lengths, unknown kinds at both ends, and each reason to wait. -/
theorem witness_CommandsWaitOrAreRefused :
    Begins State.reset ⟨0x1D, 0, [1]⟩ [] ∧ Begins State.reset ⟨0x1E, 0, []⟩ [] ∧ Begins State.reset ⟨0, 0, []⟩ [] ∧
      ({ State.reset with link := { State.reset.link with queue := [⟨2, 0, []⟩] } } : State).link.queue =
        [⟨2, 0, []⟩] ∧ (⟨2, 0, []⟩ : Command) ≠ ⟨1, 0, []⟩ :=
  ⟨begins_at_reset _, begins_at_reset _, begins_at_reset _, rfl, by decide⟩

theorem witness_IdentAnswersName : Begins State.reset ⟨0x01, 5, []⟩ [] := begins_at_reset _

/-- Groups 6 and 7, and one stored capture with age order 1. -/
theorem witness_QueriesAnswer :
    (Begins State.reset ⟨0x02, 5, []⟩ [] ∧ State.reset.report.items.length ≤ 8) ∧
      Begins State.reset ⟨0x10, 5, [6]⟩ [] ∧ Begins State.reset ⟨0x10, 5, [7]⟩ [] ∧
      Begins stored ⟨0x17, 5, []⟩ [] ∧ stored.capture.held.map (·.age) = [1] :=
  ⟨⟨begins_at_reset _, by decide⟩, begins_at_reset _, begins_at_reset _, begins_idle _ _ rfl rfl rfl rfl, by decide⟩

/-- Legal values at the ends of their ranges. -/
theorem witness_EditsReplaceStaged :
    State.reset.store.commitPending = false ∧
      (⟨true, -10000, 3, 3, -2000, 12000, 1, 2, 99, 99, 1000, 10000⟩ : ChannelSettings).valid = true ∧
      (⟨4, 4, 8380000, 8380000, 0, 10000, 1000, 63⟩ : RangeSettings).valid = true ∧
      (⟨15, 15, 15, 15, 15⟩ : GainCodes).valid = true ∧ Coeffs.legal ⟨-2 ^ 31, 2 ^ 31 - 1, 0, 0, -1⟩ ∧
      ScheduleEntry.legal ⟨true, 0x7F, 1439, 1440, some 20000, none, some 0⟩ :=
  ⟨rfl, by decide, by decide, by decide, by unfold Coeffs.legal inSigned32; decide,
    ⟨by decide, by decide, by decide, by unfold limitLegal; decide, trivial, by unfold limitLegal; decide⟩⟩

/-- A pending commit; and for each edit a field just outside its range. -/
theorem witness_EditsRefused :
    (∃ s : State, Begins s ⟨0x0C, 0, [60, 5]⟩ [] ∧ s.store.commitPending = true) ∧
      (∀ b, Begins State.reset ⟨0x0D, 0, b⟩ []) ∧ State.reset.store.commitPending = false ∧
      (⟨true, 15001, 0, 0, 0, 0, 10, 50, 90, 80, 300, 1000⟩ : ChannelSettings).valid = false ∧
      ({ defaultRange with tHi := 5600000 } : RangeSettings).valid = false ∧
      (1439 : Nat) < 1440 ∧ 20000 < 20001 ∧ 20001 < 65536 :=
  ⟨⟨{ State.reset with store := { State.reset.store with commitPending := true } }, begins_idle _ _ rfl rfl rfl rfl,
    rfl⟩, fun _ => begins_at_reset _, by decide⟩

/-- MEASURING; and UNTIMED with no check running. -/
theorem witness_CommitAndDiscard :
    (Begins measuring ⟨0x0E, 0, []⟩ [] ∧ measuring.acc.phase = .measuring) ∧
      (Begins busy ⟨0x0E, 0, []⟩ [] ∧ busy.acc.phase ≠ .measuring ∧ busy.check.params = none ∧
        TakesEvents busy.report 1) ∧ Begins State.reset ⟨0x0F, 0, []⟩ [] :=
  ⟨⟨begins_idle _ _ rfl rfl rfl rfl, rfl⟩, ⟨begins_idle _ _ rfl rfl rfl rfl, by decide, rfl,
    busy_takes_events 1 (by decide)⟩, begins_at_reset _⟩

/-- In UNTIMED a running check that the commit disturbs, and one that it does not. -/
theorem witness_CommitAndDiscard_check :
    (∃ s : State, Begins s ⟨0x0E, 0, []⟩ [] ∧ s.acc.phase ≠ .measuring ∧ Running s check1 ∧
      ¬Undisturbed s.store.active s.store.staged check1.chan ∧ TakesEvents s.report 2) ∧
    ∃ s : State, Begins s ⟨0x0E, 0, []⟩ [] ∧ s.acc.phase ≠ .measuring ∧ Running s check1 ∧
      Undisturbed s.store.active s.store.staged check1.chan :=
  ⟨⟨{ crowded false with blockWork := none, acc := busy.acc }, begins_idle _ _ rfl rfl rfl rfl, by decide,
      (witness_BoundaryClosesAndOpens_crowded false).2.2.1, (witness_BoundaryClosesAndOpens_crowded false).2.2.2.1,
      busy_takes_events 2 (by decide)⟩,
    { busy with check := ⟨.settling, some check1, 5, 0, none⟩ }, begins_idle _ _ rfl rfl rfl rfl, by decide,
    ⟨by decide, rfl⟩, rfl, ⟨rfl, rfl⟩, rfl, rfl⟩

/-- Each measurement state, and the last time of the calendar. -/
theorem witness_SetTimeHoldResume :
    (∀ p : MeasState, ∀ kind, ∃ s : State, s.acc.phase = p ∧ Begins s ⟨kind, 0, []⟩ []) ∧
      (⟨2099, 12, 31, 86399, 999⟩ : Stamp).valid = true ∧ (⟨2099, 12, 31, 86400, 0⟩ : Stamp).valid = false ∧
      Begins State.reset ⟨0x04, 0, stampBytes ⟨2099, 12, 31, 86399, 999⟩⟩ [] :=
  ⟨fun p kind => ⟨{ State.reset with acc := { State.reset.acc with phase := p } }, rfl, begins_idle _ _ rfl rfl rfl rfl⟩,
    by decide, by decide, begins_at_reset _⟩

/-- Half-periods and lengths beyond their clamps, eight items, and each field of SET_REPORTING out of range. -/
theorem witness_SettersClampAndAnswer :
    Begins State.reset ⟨0x11, 0, u8 2 ++ u16 49⟩ [] ∧ Begins State.reset ⟨0x12, 0, flag true ++ u16 2001 ++ u16 5001⟩ [] ∧
      (∀ body, Begins State.reset ⟨0x13, 0, body⟩ []) ∧
      ([.fLevel, .sLevel, .leqSoFar, .peakSoFar, .gainStep, .budgetUsed, .episodeState, .siteSoFar] :
        List LiveItem).Nodup ∧
      ¬(([0, 0, 0, 0, 0, 0, 2, 3, 3, 0, 0, 0, 0, 0, 0] : List Byte).drop 7 |>.take 2).Nodup :=
  ⟨begins_at_reset _, begins_at_reset _, fun _ => begins_at_reset _, by decide, by decide⟩

theorem witness_ReadRecordAndEvent :
    (∃ s : State, Begins s ⟨0x15, 0, []⟩ [] ∧ s.fifo = [record1 1]) ∧
      (∃ s : State, Begins s ⟨0x16, 0, []⟩ [] ∧ s.report.events = [⟨none, .powerOn, .memoryLent⟩]) ∧
      State.reset.fifo = [] ∧ State.reset.report.events = [] :=
  ⟨⟨{ State.reset with fifo := [record1 1] }, begins_idle _ _ rfl rfl rfl rfl, rfl⟩,
    ⟨{ State.reset with report := { State.reset.report with events := [⟨none, .powerOn, .memoryLent⟩] } },
      begins_idle _ _ rfl rfl rfl rfl, rfl⟩, rfl, rfl⟩

/-- A stored capture of 9 blocks read at 8 and at 9, a read in flight at both sides of the last position, a release. -/
theorem witness_CaptureReadsAndRelease :
    (Begins stored ⟨0x18, 0, u16 12 ++ u16 8 ++ [1]⟩ [] ∧ stored.capture.lend = .owned ∧
      stored.capture.findId 12 = some 5 ∧ (stored.capture.held.map (·.length)) = [9]) ∧
    (∀ p ∈ [9999, 10000], ∃ s : State, s.blockEndBegun = false ∧ s.capture.inFlight = some (.read 5 p) ∧
      s.capture.job.isSome = true) ∧
    Begins stored ⟨0x19, 0, u16 12⟩ [] ∧ Begins (recordingOne capture1 none State.reset) ⟨0x19, 0, u16 1⟩ [] :=
  ⟨⟨begins_idle _ _ rfl rfl rfl rfl, rfl, by decide, by decide⟩, fun p _ =>
    ⟨{ stored with capture := { stored.capture with
        inFlight := some (.read 5 p), job := some ⟨0, 12, 5, 9999, 0, 1, []⟩ } }, rfl, rfl, rfl⟩,
    begins_idle _ _ rfl rfl rfl rfl, begins_idle _ _ rfl rfl rfl rfl⟩

/-- A port that begins its next operation with a read waiting: below three entries, at three, and behind a write to its
position; with the memory not lent. -/
theorem witness_NextOperation :
    ∀ buffer ∈ [[], [(⟨5, 0, []⟩ : BufferEntry)], List.replicate 3 ⟨5, 0, []⟩, [⟨5, 4, []⟩]],
      let s : State := { stored with capture := { stored.capture with
        buffer, inFlight := some (.write ⟨5, 7, []⟩), job := some ⟨0, 12, 5, 0, 3, 2, [[]]⟩ } }
      s.blockEndBegun = false ∧ s.capture.lend ≠ .lent ∧ s.capture.job.isSome = true := by decide

/-- Each lend state; a write in flight at both sides of the last position; a drain about to end. -/
theorem witness_LendReclaimAndWrites :
    (∀ l : LendState, ∀ kind, ∃ s : State, s.capture.lend = l ∧ Begins s ⟨kind, 0, []⟩ [] ∧
      TakesEvents s.report 1) ∧
    (∀ p ∈ [9999, 10000], ∃ s : State, s.blockEndBegun = false ∧ MemoryHeld s ∧
      s.capture.inFlight = some (.write ⟨15, p, [1]⟩)) ∧
    ∃ s : State, s.blockEndBegun = false ∧ s.capture.inFlight = some (.write ⟨15, 9999, [1]⟩) ∧
      s.capture.lend = .lending ∧ s.capture.buffer = [] ∧ s.capture.job = none :=
  ⟨fun l _ => ⟨{ busy with capture := { busy.capture with lend := l } }, rfl, begins_idle _ _ rfl rfl rfl rfl,
      busy_takes_events 1 (by decide)⟩,
    fun p _ => ⟨{ busy with capture := { busy.capture with inFlight := some (.write ⟨15, p, [1]⟩) } }, rfl, rfl, rfl⟩,
    ⟨{ busy with capture := { busy.capture with lend := .lending, inFlight := some (.write ⟨15, 9999, [1]⟩) } }, rfl,
      rfl, rfl, rfl, rfl⟩⟩

/-- Parameters at the ends of their ranges, with and without an open episode; a field out of range; a running check. -/
theorem witness_StartAndAbortCheck :
    (∀ p ∈ ([⟨.ch1, .calibrator, 20000, 1, 1000, true, 0, 255⟩, ⟨.ch4, .internal, 0, 500, 30000, false, 1, 0⟩] :
        List CheckParams), Begins busy ⟨0x1C, 0, startCheckBody p⟩ [] ∧ busy.check.phase = .idle ∧
      busy.port.stalled = false ∧ TakesEvents busy.report 2) ∧
    ((withMonitor episode57 busy).monitor.get .ch1).episode.isSome = true ∧
    Begins busy ⟨0x1C, 0, [1, 0, 0, 0, 0xF5, 1, 0xE8, 3, 0, 0, 0, 0, 0, 0]⟩ [] ∧
    ∃ s : State, Begins s ⟨0x1D, 0, []⟩ [] ∧ s.check.phase ≠ .idle ∧ s.check.params = some check1 ∧
      TakesEvents s.report 1 :=
  ⟨fun _ _ => ⟨begins_idle _ _ rfl rfl rfl rfl, rfl, rfl, busy_takes_events 2 (by decide)⟩, rfl,
    begins_idle _ _ rfl rfl rfl rfl, { busy with check := ⟨.collecting, some check1, 3200, 0, none⟩ },
    begins_idle _ _ rfl rfl rfl rfl, by decide, rfl, busy_takes_events 1 (by decide)⟩

/-- A recorded episode on the channel of a START_CHECK; an amplitude of 0, one above 8,000,000, and one whose square wave is
below 256. -/
theorem witness_StartAndAbortCheck_fields :
    (∃ s : State, Begins s ⟨0x1C, 0, startCheckBody check1⟩ [] ∧ s.check.phase = .idle ∧ s.port.stalled = false ∧
      ∃ e, RecordedBy s .ch1 e 0 capture1) ∧
    ∀ p ∈ ([⟨.ch1, .internal, 0, 500, 1000, false, 0, 0⟩, ⟨.ch1, .internal, 0, 500, 1000, false, 8000001, 0⟩,
        ⟨.ch1, .internal, 0, 500, 1000, false, 255, 4⟩] : List CheckParams),
      (startCheckBody p).length = 14 ∧ Begins State.reset ⟨0x1C, 0, startCheckBody p⟩ [] ∧
        (p.amplitude = 0 ∨ 8000000 < p.amplitude ∨ p.amplitude * 4 ^ (4 - p.gain) < 256) :=
  ⟨⟨{ disturbed 5 with check := State.reset.check }, begins_idle _ _ rfl rfl rfl rfl, rfl, rfl, _, rfl,
      disturbed_recording 5, rfl⟩,
    fun p hp => ⟨by revert p; decide, begins_at_reset _, by revert p; decide⟩⟩

/-- A running check, an open episode and its recording, with the roles of the regions held; a recording in its tail; and
none of them. -/
theorem witness_SoftResetRestartsMeasurement :
    (Begins (disturbed 5) ⟨0x03, 0, []⟩ [] ∧ Running (disturbed 5) check1 ∧
      ((disturbed 5).monitor.get .ch1).episode.isSome = true ∧ RolesHeld (disturbed 5)) ∧
    (recordingOne capture1 (some 3) busy).capture.recording .ch1 = some (0, capture1, some 3) ∧
    Begins State.reset ⟨0x03, 0, []⟩ [] ∧ ∀ p, ¬Running State.reset p :=
  ⟨⟨begins_idle _ _ rfl rfl rfl rfl, ⟨by decide, rfl⟩, rfl, fun c => by cases c <;> decide⟩, by decide,
    begins_at_reset _, fun p h => absurd rfl h.1⟩

/-- R171: an idle transmitter with EVENT on sends the reply first, and the reset's EPISODE_CLOSED waits. -/
theorem test_softReset_replies_first :
    (let t := after (.softReset 9 [])
      (withMonitor episode57 { State.reset with report := { State.reset.report with eventOn := true } })
    (t.report.sending, t.report.events.length, t.report.replies)) = (some ⟨0x83, 9, [0]⟩, 1, []) := by decide +kernel

end Sys2Proof.Tests
end

