-- ==== Sys2Proof/Proofs/Weighting.lean ====
section
/-! PROOFS. Chapter 2: the arithmetic of a filter section (R26), the detectors' approach to the block energy (R33). -/

namespace Sys2Proof.Machine

/-! ### A section's arithmetic (R26) -/

theorem saturate32_of_above {x : Int} (h : 2 ^ 31 - 1 < x) : saturate32 x = 2 ^ 31 - 1 := by
  unfold saturate32; omega

theorem saturate32_of_below {x : Int} (h : x < -2 ^ 31) : saturate32 x = -2 ^ 31 := by
  unfold saturate32; omega

theorem saturate32_of_within {x : Int} (low : -2 ^ 31 ≤ x) (high : x ≤ 2 ^ 31 - 1) : saturate32 x = x := by
  unfold saturate32; omega

theorem sectionSaturates_of_eq {c : Coeffs} {st : SectionState} {x0 : Int}
    (h : sectionOut c st x0 = sectionSum c st x0) :
    sectionSaturates c st x0 = 0 := if_pos h

theorem sectionSaturates_of_ne {c : Coeffs} {st : SectionState} {x0 : Int}
    (h : sectionOut c st x0 ≠ sectionSum c st x0) :
    sectionSaturates c st x0 = 1 := if_neg h

/-- Adding 2^27 before the floored division by 2^28 rounds the exact quotient half up (R26, step 2). -/
theorem floor_add_half_eq_sectionSum (c : Coeffs) (st : SectionState) (x0 : Int) :
    ⌊((c.b0 * x0 + c.b1 * st.x1 + c.b2 * st.x2 - c.a1 * st.y1 - c.a2 * st.y2 : Int) : ℚ) / 2 ^ 28 + 1 / 2⌋ =
      sectionSum c st x0 := by
  unfold sectionSum
  generalize c.b0 * x0 + c.b1 * st.x1 + c.b2 * st.x2 - c.a1 * st.y1 - c.a2 * st.y2 = sum
  have shifted : (sum : ℚ) / 2 ^ 28 + 1 / 2 = ((sum + 2 ^ 27 : Int) : ℚ) / ((2 ^ 28 : Nat) : ℚ) := by
    push_cast; ring
  rw [shifted, Rat.floor_intCast_div_natCast]; rfl

/-! ### W0 (R25, R26) -/

@[simp] theorem sectionSum_flat (st : SectionState) (x0 : Int) : sectionSum .flat st x0 = x0 := by
  simp only [sectionSum, Coeffs.flat]; omega

theorem sectionOut_flat (st : SectionState) {x0 : Int} (low : -2 ^ 31 ≤ x0) (high : x0 ≤ 2 ^ 31 - 1) :
    sectionOut .flat st x0 = x0 := by
  rw [sectionOut, sectionSum_flat, saturate32_of_within low high]

theorem sectionSaturates_flat (st : SectionState) {x0 : Int} (low : -2 ^ 31 ≤ x0) (high : x0 ≤ 2 ^ 31 - 1) :
    sectionSaturates .flat st x0 = 0 :=
  sectionSaturates_of_eq (by rw [sectionOut_flat st low high, sectionSum_flat])

theorem path_flat (p : FilterPath) {a : Int} (low : -2 ^ 31 ≤ a) (high : a ≤ 2 ^ 31 - 1) :
    pathOut .flat p a = a ∧ pathSaturations .flat p a = 0 := by
  have out (st : SectionState) : sectionOut .flat st a = a := sectionOut_flat st low high
  have unsaturated (st : SectionState) : sectionSaturates .flat st a = 0 := sectionSaturates_flat st low high
  simp only [pathOut, pathSaturations, WeightingSet.flat, out, unsaturated, and_self]

/-- Settles O23: the rounded quotient is `sectionSum`, and each side of the 32-bit range is a case of `saturate32`. -/
theorem sectionArithmeticIsExact : Obligations.SectionArithmeticIsExact := by
  refine ⟨fun c st x0 => ?_, fun p a low high => path_flat p low high⟩
  rw [floor_add_half_eq_sectionSum]
  refine ⟨fun above => ?_, fun below => ?_, fun low high => ?_, rfl⟩
  · have out : sectionOut c st x0 = 2 ^ 31 - 1 := saturate32_of_above above
    exact ⟨out, sectionSaturates_of_ne (by omega)⟩
  · have out : sectionOut c st x0 = -2 ^ 31 := saturate32_of_below below
    exact ⟨out, sectionSaturates_of_ne (by omega)⟩
  · have out : sectionOut c st x0 = sectionSum c st x0 := saturate32_of_within low high
    exact ⟨out, sectionSaturates_of_eq out⟩

/-! ### One detector update (R33) -/

/-- R33's reason that a falling detector does not pass E: a negative integer never exceeds its floored quotient. -/
theorem le_ediv_of_nonpos {a d : Int} (ha : a ≤ 0) (hd : 0 < d) : a ≤ a / d :=
  (Int.le_ediv_iff_mul_le hd).2 (by nlinarith)

section Detector

variable {d : Nat} (hd : 0 < d)
include hd

/-- The floored step never takes the detector below 0, so `toNat` loses nothing. -/
theorem detectorStep_cast (e y : Nat) : (detectorStep d e y : Int) = y + ((e : Int) - y) / d := by
  have bound : -(y : Int) ≤ ((e : Int) - y) / d :=
    (le_ediv_of_nonpos (by omega) (by omega)).trans (Int.ediv_le_ediv (b := (e : Int) - y) (by omega) (by omega))
  rw [detectorStep, Int.toNat_of_nonneg (by omega)]

theorem detectorStep_eq_floor (e y : Nat) : (detectorStep d e y : Int) = y + ⌊((e : ℚ) - y) / d⌋ := by
  have quotient : ((e : ℚ) - y) / d = (((e : Int) - y : Int) : ℚ) / d := by push_cast; rfl
  rw [detectorStep_cast hd, quotient, Rat.floor_intCast_div_natCast]

theorem detectorStep_from_above {e y : Nat} (h : e < y) : e ≤ detectorStep d e y ∧ detectorStep d e y < y := by
  have cast := detectorStep_cast hd e y
  have low : (e : Int) - y ≤ ((e : Int) - y) / d := le_ediv_of_nonpos (by omega) (by omega)
  have high : ((e : Int) - y) / d < 0 := Int.ediv_neg_of_neg_of_pos (by omega) (by omega)
  omega

theorem detectorStep_from_below {e y : Nat} (h : y ≤ e) : y ≤ detectorStep d e y ∧ detectorStep d e y ≤ e := by
  have cast := detectorStep_cast hd e y
  have low : 0 ≤ ((e : Int) - y) / d := Int.ediv_nonneg (by omega) (by omega)
  have high : ((e : Int) - y) / d ≤ (e : Int) - y := Int.ediv_le_self _ (by omega)
  omega

theorem detectorStep_rests {e y : Nat} (h : y ≤ e) (near : e < y + d) : detectorStep d e y = y := by
  have cast := detectorStep_cast hd e y
  rw [Int.ediv_eq_zero_of_lt (by omega) (by omega)] at cast
  omega

theorem detectorStep_rises {e y : Nat} (far : y + d ≤ e) : y < detectorStep d e y := by
  have cast := detectorStep_cast hd e y
  have step : 0 < ((e : Int) - y) / d := (Int.le_ediv_iff_mul_le (by omega)).2 (by omega)
  omega

theorem detectorStep_between (e y : Nat) : min y e ≤ detectorStep d e y ∧ detectorStep d e y ≤ max y e := by
  rcases lt_or_ge e y with above | below
  · obtain ⟨low, high⟩ := detectorStep_from_above hd above
    omega
  · obtain ⟨low, high⟩ := detectorStep_from_below hd below
    omega

end Detector

/-! ### A detector under a constant block energy (R33) -/

/-- A value that moves within `inside` and lowers a measure until it stands in `goal` gets there. -/
theorem exists_iterate_of_measure_lt {f : Nat → Nat} {inside goal : Nat → Prop} (measure : Nat → Nat)
    (step : ∀ z, inside z → ¬goal z → inside (f z) ∧ measure (f z) < measure z) (y : Nat) (start : inside y) :
    ∃ n, inside (f^[n] y) ∧ goal (f^[n] y) := by
  induction hm : measure y using Nat.strong_induction_on generalizing y with
  | _ m ih =>
    by_cases done : goal y
    · exact ⟨0, start, done⟩
    · obtain ⟨stays, lower⟩ := step y start done
      obtain ⟨n, arrived⟩ := ih _ (hm ▸ lower) (f y) stays rfl
      exact ⟨n + 1, arrived⟩

theorem detectorStep_reaches_from_above {d : Nat} (hd : 0 < d) {e y : Nat} (h : e ≤ y) :
    ∃ n, (detectorStep d e)^[n] y = e := by
  obtain ⟨n, -, reached⟩ := exists_iterate_of_measure_lt (f := detectorStep d e) (inside := (e ≤ ·))
    (goal := (· = e)) id
    (fun z inside apart => detectorStep_from_above hd (by omega)) y h
  exact ⟨n, reached⟩

theorem detectorStep_stops_from_below {d : Nat} (hd : 0 < d) {e y : Nat} (h : y ≤ e) :
    ∃ n, let z := (detectorStep d e)^[n] y; z ≤ e ∧ e < z + d ∧ detectorStep d e z = z := by
  obtain ⟨n, inside, near⟩ := exists_iterate_of_measure_lt (f := detectorStep d e) (inside := (· ≤ e))
    (goal := (e < · + d)) (e - ·)
    (fun z inside far => by
      have rises := detectorStep_rises hd (not_lt.1 far)
      have within := (detectorStep_from_below hd inside).2
      exact ⟨within, by omega⟩) y h
  exact ⟨n, inside, near, detectorStep_rests hd inside near⟩

@[simp] theorem level_zero (k : Int) (n : Nat) : level k 0 n = nosig := if_pos rfl

/-- Settles O24: one update by the sign of E − y, and the runs of updates by the distance from E falling to its end. -/
theorem detectorsFollowEnergy : Obligations.DetectorsFollowEnergy := by
  intro d divisor e y
  have hd : 0 < d := by omega
  obtain ⟨low, high⟩ := detectorStep_between hd e y
  exact ⟨detectorStep_eq_floor hd e y, low, high, fun hy he => high.trans (max_le hy he),
    detectorStep_reaches_from_above hd, detectorStep_stops_from_below hd,
    fun sounding => (detectorStep_from_above hd sounding).2, fun k => level_zero k 48, fun u => ⟨rfl, rfl, rfl, rfl⟩⟩

end Sys2Proof.Machine
end

section
/-! PROOFS. Chapter 3: the level function is the rounded logarithm of the mean square (R40), the peak level that of the peak
(R45). -/

namespace Sys2Proof.Machine

/-- The level before rounding and without K (R40). -/
noncomputable def exactLevel (v n : Nat) : ℝ := 1000 * Real.logb 10 ((v : ℝ) / n)

/-! ### The comparison taken to the 2000th power -/

theorem one_lt_ten : (1 : ℝ) < 10 := by norm_num

/-- Whichever side of `reaches` carries the power of ten, it is one comparison with an integer power. -/
theorem reaches_iff_zpow_le (v n : Nat) (m : Int) :
    reaches v n m = true ↔ (10 : ℝ) ^ (2 * m - 1) * (n : ℝ) ^ 2000 ≤ (v : ℝ) ^ 2000 := by
  unfold reaches
  split
  next =>
    have power : (10 : ℝ) ^ (2 * m - 1) = 10 ^ (2 * m - 1).toNat := by
      rw [← zpow_natCast, Int.toNat_of_nonneg (by omega)]
    rw [decide_eq_true_iff, power]
    exact_mod_cast Iff.rfl
  next =>
    have power : (10 : ℝ) ^ (2 * m - 1) = (10 ^ (1 - 2 * m).toNat)⁻¹ := by
      rw [← zpow_natCast, Int.toNat_of_nonneg (by omega), ← zpow_neg, neg_sub]
    rw [decide_eq_true_iff, power, inv_mul_le_iff₀ (by positivity), mul_comm]
    exact_mod_cast Iff.rfl

/-- At a half-way point the 1000th power of v/n over a power of ten would be a rational square root of 10. -/
theorem meanSquare_ne_halfway (v n : Nat) (m : Int) : (v : ℝ) / n ≠ (10 : ℝ) ^ (((m : ℝ) + 1 / 2) / 1000) := by
  intro halfway
  have power : ((v : ℝ) / n) ^ 2000 = (10 : ℝ) ^ (2 * m + 1) := by
    rw [halfway, ← Real.rpow_mul_natCast (by norm_num), ← Real.rpow_intCast]
    push_cast; ring_nf
  have square : (((v : ℝ) / n) ^ 1000 / 10 ^ m) ^ 2 = 10 := by
    rw [div_pow, ← pow_mul, power, ← zpow_natCast, ← zpow_mul, ← zpow_sub₀ (by norm_num)]
    norm_num [mul_comm]
  have rational : (((v : ℚ) / n) ^ 1000 / 10 ^ m) ^ 2 = (10 : Nat) := by
    apply Rat.cast_injective (α := ℝ)
    push_cast; exact square
  have notSquare : ¬IsSquare (10 : Nat) := by norm_num
  exact notSquare (Rat.isSquare_natCast_iff.1 ⟨_, rational.symm.trans (sq _)⟩)

section Positive

variable {v n : Nat} (hv : 0 < v) (hn : 0 < n)
include hv hn

theorem meanSquare_pos : (0 : ℝ) < (v : ℝ) / n := by positivity

theorem reaches_iff_le_round (m : Int) : reaches v n m = true ↔ m ≤ round (exactLevel v n) := by
  have positive := meanSquare_pos hv hn
  have nPositive : (0 : ℝ) < (n : ℝ) ^ 2000 := by positivity
  calc reaches v n m = true
      ↔ (10 : ℝ) ^ (2 * m - 1) ≤ ((v : ℝ) / n) ^ 2000 := by
        rw [reaches_iff_zpow_le, div_pow, le_div_iff₀ nPositive]
    _ ↔ ((2 * m - 1 : Int) : ℝ) ≤ (2000 : Nat) * Real.logb 10 ((v : ℝ) / n) := by
        rw [← Real.logb_pow, Real.le_logb_iff_rpow_le one_lt_ten (pow_pos positive _), Real.rpow_intCast]
    _ ↔ (m : ℝ) ≤ exactLevel v n + 1 / 2 := by
        unfold exactLevel; push_cast; constructor <;> intro h <;> linarith
    _ ↔ m ≤ round (exactLevel v n) := by rw [round_eq, Int.le_floor]

/-- The left side of R40's double inequality. -/
theorem le_round_exactLevel_iff (m : Int) :
    m ≤ round (exactLevel v n) ↔ (10 : ℝ) ^ (((m : ℝ) - 1 / 2) / 1000) ≤ (v : ℝ) / n := by
  rw [← Real.le_logb_iff_rpow_le one_lt_ten (meanSquare_pos hv hn), round_eq, Int.le_floor, exactLevel,
    div_le_iff₀' (by norm_num), sub_le_iff_le_add]

/-- The right side of R40's double inequality: it is the left one, for the next integer, failing. -/
theorem round_exactLevel_le_iff (m : Int) :
    round (exactLevel v n) ≤ m ↔ (v : ℝ) / n < (10 : ℝ) ^ (((m : ℝ) + 1 / 2) / 1000) := by
  have next : ((m + 1 : Int) : ℝ) - 1 / 2 = m + 1 / 2 := by push_cast; ring
  rw [← Int.lt_add_one_iff, ← not_le, le_round_exactLevel_iff hv hn, next, not_le]

end Positive

/-! ### The search -/

theorem greatest_eq {p : Nat → Bool} {t : Nat} (hp : ∀ x, p x = true ↔ x ≤ t) (bits acc : Nat) (low : acc ≤ t)
    (high : t < acc + 2 ^ bits) : greatest p bits acc = t := by
  induction bits generalizing acc with
  | zero => rw [greatest]; omega
  | succ bits ih =>
    rw [pow_succ] at high
    unfold greatest
    split
    next reached => exact ih _ ((hp _).1 reached) (by omega)
    next missed => exact ih _ low (not_le.1 (mt (hp _).2 missed))

/-- A binary digit adds at most 304 thousandths to a decimal logarithm. -/
theorem thousand_logb_le {a : Nat} (ha : 0 < a) : 1000 * Real.logb 10 a ≤ (304 * (a.log2 + 1) : Nat) := by
  have digits : (a : ℝ) ≤ 2 ^ (a.log2 + 1) := by exact_mod_cast Nat.lt_log2_self.le
  have two : (125 : Nat) * Real.logb 10 2 ≤ 38 := by
    rw [← Real.logb_pow, Real.logb_le_iff_le_rpow one_lt_ten (by norm_num)]
    norm_num
  calc 1000 * Real.logb 10 a
      ≤ 1000 * Real.logb 10 (2 ^ (a.log2 + 1)) := by
        gcongr
        exact one_lt_ten
    _ = (8 * (a.log2 + 1) : Nat) * ((125 : Nat) * Real.logb 10 2) := by rw [Real.logb_pow]; push_cast; ring
    _ ≤ (8 * (a.log2 + 1) : Nat) * 38 := by gcongr
    _ = (304 * (a.log2 + 1) : Nat) := by push_cast; ring

/-- The level lies in the range that `logLevel` searches. -/
theorem round_exactLevel_bounds {v n : Nat} (hv : 0 < v) (hn : 0 < n) :
    logLow n ≤ round (exactLevel v n) ∧ round (exactLevel v n) < logLow n + logSpan v n := by
  have split : exactLevel v n = 1000 * Real.logb 10 v - 1000 * Real.logb 10 n := by
    rw [exactLevel, Real.logb_div (by positivity) (by positivity), mul_sub]
  have vLow : 0 ≤ Real.logb 10 v := Real.logb_nonneg one_lt_ten (by exact_mod_cast hv)
  have nLow : 0 ≤ Real.logb 10 n := Real.logb_nonneg one_lt_ten (by exact_mod_cast hn)
  have vHigh := thousand_logb_le hv
  have nHigh := thousand_logb_le hn
  rw [round_eq, Int.le_floor, Int.floor_lt, logLow, logSpan, split]
  push_cast at vHigh nHigh ⊢
  constructor <;> linarith

theorem logLevel_eq_round {v n : Nat} (hv : 0 < v) (hn : 0 < n) : logLevel v n = round (exactLevel v n) := by
  obtain ⟨low, high⟩ := round_exactLevel_bounds hv hn
  obtain ⟨t, found⟩ := Int.le.dest low
  have threshold (x : Nat) : reaches v n (logLow n + x) = true ↔ x ≤ t := by
    rw [reaches_iff_le_round hv hn]; omega
  have wide : logSpan v n < 2 ^ ((logSpan v n).log2 + 1) := Nat.lt_log2_self
  rw [logLevel, greatest_eq threshold _ 0 (by omega) (by omega), found]

/-! ### The level and the peak level -/

theorem level_eq_round_add {v n : Nat} (k : Int) (hv : 0 < v) (hn : 0 < n) :
    level k v n = round (exactLevel v n) + k := by
  rw [level, if_neg hv.ne', if_neg hn.ne', logLevel_eq_round hv hn]

theorem level_eq_add_iff {v n : Nat} (k : Int) (hv : 0 < v) (hn : 0 < n) (m : Int) :
    level k v n = m + k ↔
      (10 : ℝ) ^ (((m : ℝ) - 1 / 2) / 1000) ≤ (v : ℝ) / n ∧ (v : ℝ) / n < (10 : ℝ) ^ (((m : ℝ) + 1 / 2) / 1000) := by
  rw [level_eq_round_add k hv hn, ← le_round_exactLevel_iff hv hn, ← round_exactLevel_le_iff hv hn]
  omega

theorem exactLevel_powerOfTen {n : Nat} (e : Nat) (hn : 0 < n) : exactLevel (n * 10 ^ e) n = 1000 * e := by
  have quotient : ((n * 10 ^ e : Nat) : ℝ) / n = 10 ^ e := by push_cast; field_simp
  rw [exactLevel, quotient, Real.logb_pow, Real.logb_self_eq_one one_lt_ten, mul_one]

theorem level_powerOfTen {n : Nat} (k : Int) (e : Nat) (hn : 0 < n) : level k (n * 10 ^ e) n = 1000 * e + k := by
  have whole : exactLevel (n * 10 ^ e) n = ((1000 * e : Int) : ℝ) := by
    rw [exactLevel_powerOfTen e hn]; push_cast; rfl
  rw [level_eq_round_add k (by positivity) hn, whole, round_intCast]

/-- P² over 2^16 is the square of P over 256 (R45). -/
theorem exactLevel_peak (p : Nat) : exactLevel (p ^ 2) 65536 = 2000 * Real.logb 10 ((p : ℝ) / 256) := by
  have square : ((p ^ 2 : Nat) : ℝ) / (65536 : Nat) = ((p : ℝ) / 256) ^ 2 := by push_cast; ring
  rw [exactLevel, square, Real.logb_pow]
  push_cast; ring

theorem peakLevel_eq_round_add {p : Nat} (k : Int) (hp : 0 < p) :
    peakLevel k p = round (2000 * Real.logb 10 ((p : ℝ) / 256)) + k := by
  rw [peakLevel, level_eq_round_add k (by positivity) (by norm_num), exactLevel_peak]

@[simp] theorem peakLevel_zero (k : Int) : peakLevel k 0 = nosig := level_zero k 65536

/-- Settles O26: the search finds the rounded logarithm, and the two sides of the double inequality are its two bounds. -/
theorem levelIsRoundedLogarithm : Obligations.LevelIsRoundedLogarithm :=
  ⟨level_zero,
    fun k _ _ hv hn => ⟨level_eq_round_add k hv hn, level_eq_add_iff k hv hn, meanSquare_ne_halfway _ _⟩,
    fun k _ e hn => level_powerOfTen k e hn, peakLevel_zero, fun k _ hp => peakLevel_eq_round_add k hp⟩

end Sys2Proof.Machine
end

section
/-! PROOFS. Chapter 4: the schedule lookup is the library's search for the first matching entry (R66). -/

namespace Sys2Proof.Machine

/-! ### One entry (R66) -/

theorem ScheduleEntry.matchesAt_iff (e : ScheduleEntry) (dow minute : Nat) :
    e.matchesAt dow minute = true ↔
      e.valid = true ∧ e.days.getLsbD dow = true ∧ e.startMinute ≤ minute ∧ minute < e.endMinute := by
  simp only [ScheduleEntry.matchesAt, Bool.and_eq_true, decide_eq_true_eq, and_assoc]

/-! ### The search over the entries -/

theorem lookupFrom_eq_findIdx? (dow minute : Nat) (entries : List ScheduleEntry) (first : Nat) :
    lookupFrom dow minute entries first =
      (entries.findIdx? (·.matchesAt dow minute)).elim .noEntry fun k => .entry (first + k) := by
  induction entries generalizing first with
  | nil => rfl
  | cons e rest ih =>
    rw [lookupFrom, List.findIdx?_cons]
    split
    next => rfl
    next => simp only [ih, Option.elim_map, Function.comp_def, Nat.add_right_comm, Nat.add_assoc]

section Lookup
variable (schedule : Vector ScheduleEntry 16) (t : Stamp)

theorem lookup_eq_findIdx? :
    lookup schedule t =
      (schedule.toList.findIdx? (·.matchesAt (dayOfWeek t) (minuteOfDay t))).elim .noEntry .entry := by
  simp only [lookup, lookupFrom_eq_findIdx?, Nat.zero_add]

theorem lookup_eq_entry_iff (i : Nat) :
    lookup schedule t = .entry i ↔
      ∃ h : i < 16, schedule[i].matchesAt (dayOfWeek t) (minuteOfDay t) = true ∧
        ∀ j : Fin 16, j.val < i → ¬schedule[j].matchesAt (dayOfWeek t) (minuteOfDay t) = true := by
  have search : lookup schedule t = .entry i ↔
      schedule.toList.findIdx? (·.matchesAt (dayOfWeek t) (minuteOfDay t)) = some i := by
    rw [lookup_eq_findIdx?]
    cases schedule.toList.findIdx? _ <;> simp
  simp only [search, List.findIdx?_eq_some_iff_getElem, Vector.length_toList, Vector.getElem_toList, Fin.forall_iff,
    Fin.getElem_fin]
  exact exists_congr fun inside => and_congr_right fun _ =>
    ⟨fun earlier j _ below => earlier j below, fun earlier j below => earlier j (below.trans inside) below⟩

theorem lookup_eq_noEntry_iff :
    lookup schedule t = .noEntry ↔
      ∀ i : Fin 16, ¬schedule[i].matchesAt (dayOfWeek t) (minuteOfDay t) = true := by
  have search : lookup schedule t = .noEntry ↔
      schedule.toList.findIdx? (·.matchesAt (dayOfWeek t) (minuteOfDay t)) = none := by
    rw [lookup_eq_findIdx?]
    cases schedule.toList.findIdx? _ <;> simp
  simp only [search, List.findIdx?_eq_none_iff, Vector.mem_toList_iff, Vector.forall_mem_iff_forall_getElem,
    Fin.forall_iff, Fin.getElem_fin, Bool.not_eq_true]

end Lookup

/-! ### What the lookup reads of the instant -/

theorem dayOfWeek_congr {u t : Stamp} (date : (u.year, u.month, u.day) = (t.year, t.month, t.day)) :
    dayOfWeek u = dayOfWeek t := by
  obtain ⟨year, month, day⟩ : u.year = t.year ∧ u.month = t.month ∧ u.day = t.day := by simpa using date
  rw [dayOfWeek, dayOfWeek, dayNumber, dayNumber, year, month, day]

theorem lookup_congr (schedule : Vector ScheduleEntry 16) {u t : Stamp} (day : dayOfWeek u = dayOfWeek t)
    (minute : minuteOfDay u = minuteOfDay t) : lookup schedule u = lookup schedule t := by
  rw [lookup, lookup, day, minute]

/-- Settles O32: the lookup is the first matching index, and an entry's match is the four conditions of R66. -/
theorem lookupFindsLowestMatch : Obligations.LookupFindsLowestMatch := by
  intro schedule t hit
  have matches_iff_hit (i : Fin 16) :
      schedule[i].matchesAt (dayOfWeek t) (minuteOfDay t) = true ↔ hit i := ScheduleEntry.matchesAt_iff ..
  refine ⟨fun i => ?_, ?_, fun u date minute => lookup_congr schedule (dayOfWeek_congr date) minute⟩
  · simp only [lookup_eq_entry_iff, ← matches_iff_hit, Fin.getElem_fin]
  · simp only [lookup_eq_noEntry_iff, matches_iff_hit]

end Sys2Proof.Machine
end

section
/-! PROOFS. Chapter 10: the reply of IDENT (R178). -/

namespace Sys2Proof.Machine

theorem exec_ident (tag : Byte) (body : List Byte) (s : State) :
    exec (.ident tag body) s = .next (s.runCommand Config.pick 0x01 tag body identRule) := rfl

/-- IDENT carries no body (R183). -/
theorem commandLength_ident : commandLength 0x01 = some 0 := by decide

@[simp] theorem identRule_state (body : List Byte) (s : State) : (identRule body s).state = s := rfl

/-- The status OK, the ten characters, the design issue and the rate code, a byte each (R177, R178). -/
theorem identRule_body (body : List Byte) (s : State) :
    (identRule body s).body = 0 :: partName ++ [1, BitVec.ofNat 8 s.link.rate] := rfl

/-- Settles O49: the rule keeps the state, and taking the command from its queue keeps the rate code. -/
theorem identAnswersName : Obligations.IdentAnswersName := by
  intro s tag rest begins
  obtain ⟨q, answered, run⟩ := runCommand_answered Config.pick identRule begins commandLength_ident
  simp only [identRule_state, identRule_body, taken_report, taken_link] at answered run
  exact ⟨q, answered, (exec_ident tag [] s).trans (congrArg _ run)⟩

end Sys2Proof.Machine
end

section
/-! PROOFS. The link commands that a rule answers: what each rule does to the state (R177), and that the values it takes from
a body are legal (R18, R19, R28, R65, R76, R77, R78, R122, R170). -/

namespace Sys2Proof.Machine

/-! ### The link commands that a rule answers (R176, R177) -/

/-- A link command with the rule that its row applies. -/
structure RuleCommand where
  kind : Byte
  tag : Byte
  body : List Byte
  rule : List Byte → State → Answer

/-- The command of a row that is a rule and its reply, and no more. -/
def ruleCommand : Instr → Option RuleCommand
  | .ident tag body => some ⟨0x01, tag, body, identRule⟩
  | .status tag body => some ⟨0x02, tag, body, statusRule⟩
  | .softReset tag body => some ⟨0x03, tag, body, softResetRule Config.pick⟩
  | .setTime tag body => some ⟨0x04, tag, body, setTimeRule⟩
  | .hold tag body => some ⟨0x05, tag, body, holdRule⟩
  | .resume tag body => some ⟨0x06, tag, body, resumeRule⟩
  | .editChannel tag body => some ⟨0x07, tag, body, editRule editChannelOf writeChannel⟩
  | .editRange tag body => some ⟨0x08, tag, body, editRule editRangeOf writeRange⟩
  | .editGainCodes tag body => some ⟨0x09, tag, body, editRule editGainCodesOf writeGainCodes⟩
  | .editWeighting tag body => some ⟨0x0A, tag, body, editRule editWeightingOf writeWeighting⟩
  | .editLimits tag body => some ⟨0x0B, tag, body, editRule editLimitsOf writeLimits⟩
  | .editInterval tag body => some ⟨0x0C, tag, body, editRule editIntervalOf writeInterval⟩
  | .editActivity tag body => some ⟨0x0D, tag, body, editRule editActivityOf writeActivity⟩
  | .commit tag body => some ⟨0x0E, tag, body, commitRule⟩
  | .discard tag body => some ⟨0x0F, tag, body, discardRule⟩
  | .readSettings tag body => some ⟨0x10, tag, body, readSettingsRule⟩
  | .setAlert tag body => some ⟨0x11, tag, body, setAlertRule⟩
  | .setCapture tag body => some ⟨0x12, tag, body, setCaptureRule⟩
  | .setReporting tag body => some ⟨0x13, tag, body, setReportingRule⟩
  | .snapshot tag body => some ⟨0x14, tag, body, snapshotRule⟩
  | .readRecord tag body => some ⟨0x15, tag, body, readRecordRule⟩
  | .readEvent tag body => some ⟨0x16, tag, body, readEventRule⟩
  | .listCaptures tag body => some ⟨0x17, tag, body, listCapturesRule⟩
  | .releaseCapture tag body => some ⟨0x19, tag, body, releaseCaptureRule⟩
  | .reclaimMemory tag body => some ⟨0x1B, tag, body, reclaimMemoryRule Config.lentMemory⟩
  | .startCheck tag body => some ⟨0x1C, tag, body, startCheckRule⟩
  | .abortCheck tag body => some ⟨0x1D, tag, body, abortCheckRule⟩
  | _ => none

theorem exec_ruleCommand {i : Instr} {x : RuleCommand} (h : ruleCommand i = some x) (s : State) :
    exec i s = .next (s.runCommand Config.pick x.kind x.tag x.body x.rule) := by
  cases i <;> simp only [ruleCommand, Option.some.injEq, reduceCtorEq] at h <;> subst h <;> rfl

/-! ### What each rule does to the state -/

section Rules
variable (body : List Byte) (s : State)

@[simp] theorem statusRule_state : (statusRule body s).state = s := rfl
@[simp] theorem snapshotRule_state : (snapshotRule body s).state = s := rfl
@[simp] theorem listCapturesRule_state : (listCapturesRule body s).state = s := rfl

@[simp] theorem readSettingsRule_state : (readSettingsRule body s).state = s := by
  unfold readSettingsRule; split <;> rfl

theorem setTimeRule_cases : (setTimeRule body s).state = s ∨
    ∃ t : Stamp, t.valid = true ∧
      (setTimeRule body s).state = { s with clock := { s.clock with pendingLoad := some t } } := by
  unfold setTimeRule setTimeOf accept
  by_cases valid : (stampOf body).valid = true
  · exact .inr ⟨stampOf body, valid, by rw [if_pos valid]; rfl⟩
  · exact .inl (by rw [if_neg valid]; rfl)

theorem holdRule_cases : (holdRule body s).state = s ∨
    (s.acc.phase = .measuring ∧ (holdRule body s).state = { s with acc := { s.acc with holdPending := true } }) ∨
    (s.acc.phase = .held ∧ (holdRule body s).state = { s with acc := { s.acc with openingPending := false } }) := by
  unfold holdRule
  split
  next => exact .inl rfl
  next phase => exact .inr (.inl ⟨phase, rfl⟩)
  next phase => exact .inr (.inr ⟨phase, rfl⟩)

theorem resumeRule_cases : (resumeRule body s).state = s ∨
    (s.acc.phase = .held ∧ (resumeRule body s).state = { s with acc := { s.acc with openingPending := true } }) ∨
    (s.acc.phase = .measuring ∧
      ((resumeRule body s).state = { s with acc := { s.acc with holdPending := false } } ∨
        (resumeRule body s).state = { s with acc := { s.acc with restartPending := true } })) := by
  unfold resumeRule Accumulator.resume
  split
  next => exact .inl rfl
  next timed =>
    split
    next phase => exact absurd phase timed
    next phase => exact .inr (.inl ⟨phase, rfl⟩)
    next phase =>
      split
      next => exact .inr (.inr ⟨phase, .inl rfl⟩)
      next =>
        split
        next => exact .inl rfl
        next => exact .inr (.inr ⟨phase, .inr rfl⟩)

theorem editRule_cases {α : Type} (read : List Byte → Option α) (write : α → Settings → Settings) :
    (editRule read write body s).state = s ∨
      ∃ x, read body = some x ∧ s.store.commitPending = false ∧
        (editRule read write body s).state =
          { s with store := { s.store with staged := write x s.store.staged } } := by
  unfold editRule
  split
  next => exact .inl rfl
  next pending =>
    cases read body with
    | none => exact .inl rfl
    | some x => exact .inr ⟨x, rfl, by simpa using pending, rfl⟩

theorem commitRule_cases :
    (s.acc.phase = .measuring ∧
      (commitRule body s).state = { s with store := { s.store with commitPending := true } }) ∨
    (s.acc.phase ≠ .measuring ∧ (commitRule body s).state = s.commitAtOnce s.clock.now) := by
  unfold commitRule
  split
  next phase => exact .inl ⟨phase, rfl⟩
  next phase => exact .inr ⟨by simp [phase], rfl⟩
  next phase => exact .inr ⟨by simp [phase], rfl⟩

@[simp] theorem discardRule_state : (discardRule body s).state = { s with store := s.store.revert } := rfl

theorem setAlertRule_cases : (setAlertRule body s).state = s ∨
    ∃ m h, 50 ≤ h ∧ h ≤ 2000 ∧
      (setAlertRule body s).state = { s with alert := { s.alert with pendingSetting := some (m, h) } } := by
  unfold setAlertRule setAlertOf
  cases alertModeOf (field8 body 0) with
  | none => exact .inl rfl
  | some m => exact .inr ⟨m, clamp 50 2000 (field16 body 1), by unfold clamp; omega, by unfold clamp; omega, rfl⟩

theorem setCaptureRule_frame : (setCaptureRule body s).state =
    { s with capture := { s.capture with
      protect := (setCaptureRule body s).state.capture.protect
      preLength := (setCaptureRule body s).state.capture.preLength
      tailLength := (setCaptureRule body s).state.capture.tailLength } } := by
  unfold setCaptureRule; split <;> rfl

theorem setReportingRule_cases : (setReportingRule body s).state = s ∨
    ∃ r, setReportingOf body = some r ∧
      ((setReportingRule body s).state = { s with report := s.report.configure r } ∨
        (setReportingRule body s).state = State.transmit { s with report := s.report.configure r }) := by
  unfold setReportingRule
  cases setReportingOf body with
  | none => exact .inl rfl
  | some r =>
    by_cases differ : s.report.enablesDiffer r = true
    · exact .inr ⟨r, rfl, .inr (by simp [differ])⟩
    · exact .inr ⟨r, rfl, .inl (by simp [differ])⟩

theorem startCheckRule_cases : (startCheckRule body s).state = s ∨
    ∃ p, startCheckOf body = some p ∧ s.check.phase = .idle ∧ s.port.stalled = false ∧
      (startCheckRule body s).state = s.beginCheck p := by
  unfold startCheckRule
  by_cases idle : s.check.phase = .idle
  · by_cases stalled : s.port.stalled = true
    · exact .inl (by simp [idle, stalled, Answer.refuse])
    · cases startCheckOf body with
      | none => exact .inl (by simp [idle, stalled, Answer.refuse])
      | some p => exact .inr ⟨p, rfl, idle, by simpa using stalled, by simp [idle, stalled, Answer.done]⟩
  · exact .inl (by simp [idle, Answer.refuse])

theorem abortCheckRule_cases : (abortCheckRule body s).state = s ∨
    (abortCheckRule body s).state = s.cutCheck .aborted s.clock.now := by
  unfold abortCheckRule
  split
  next => exact .inl rfl
  next => exact .inr rfl

@[simp] theorem readRecordRule_state : (readRecordRule body s).state = { s with fifo := s.fifo.tail } := by
  unfold readRecordRule
  split
  next r rest found => simp [found]
  next empty => simp [empty, Answer.refuse]; rw [← empty]

theorem readEventRule_cases : (readEventRule body s).state = s ∨
    (readEventRule body s).state = { s with report := s.report.afterNotice s.report.events.tail } := by
  unfold readEventRule
  cases s.report.events with
  | nil => exact .inl rfl
  | cons n rest => exact .inr rfl

theorem releaseCaptureRule_cases : (releaseCaptureRule body s).state = s ∨
    ∃ (i : Fin 16) (d : Descriptor), s.capture.regions[i] = .stored d ∧
      (releaseCaptureRule body s).state = { s with capture := s.capture.release i d } := by
  unfold releaseCaptureRule
  cases s.capture.findId (field16 body 0) with
  | none => exact .inl rfl
  | some i =>
    cases found : s.capture.regions[i] with
    | stored d => exact .inr ⟨i, d, found, by simp [found, Answer.done]⟩
    | _ => exact .inl (by simp [found, Answer.refuse])

theorem reclaimMemoryRule_cases (lent : Nat → List Host.Cell → List Host.Cell) :
    (reclaimMemoryRule lent body s).state = s ∨
      (s.capture.lend = .lent ∧ (reclaimMemoryRule lent body s).state =
        { s with
          memory := reclaimedMemory lent s, choice := s.choice + 1
          capture := { s.capture.emptyRings with lend := .owned } }) := by
  unfold reclaimMemoryRule
  cases s.capture.lend with
  | lent => exact .inr ⟨rfl, rfl⟩
  | _ => exact .inl rfl

theorem lendMemoryRule_cases : (lendMemoryRule body s).state = s ∨
    (s.capture.lend = .owned ∧
      (lendMemoryRule body s).state = { s with capture := { s.capture with lend := .lending } }) := by
  unfold lendMemoryRule
  cases s.capture.lend with
  | owned => exact .inr ⟨rfl, rfl⟩
  | _ => exact .inl rfl

end Rules

/-! ### Every edit writes legal values -/

theorem accept_eq_some {α : Type} {ok : Bool} {x y : α} (h : accept ok x = some y) : ok = true ∧ x = y := by
  unfold accept at h
  split at h
  next legal => exact ⟨legal, Option.some.inj h⟩
  next => cases h

theorem signed32_legal (b : List Byte) (i : Nat) : inSigned32 (signed32 b i) := by
  unfold inSigned32 signed32
  have low := BitVec.le_toInt (BitVec.ofNat 32 (field32 b i))
  have high := BitVec.toInt_lt (x := BitVec.ofNat 32 (field32 b i))
  omega

theorem editChannelOf_valid {b : List Byte} {x : Chan × ChannelSettings} (h : editChannelOf b = some x) :
    x.2.valid = true := by
  unfold editChannelOf at h
  split at h
  · obtain ⟨legal, rfl⟩ := accept_eq_some h
    exact legal
  · cases h

theorem editRangeOf_valid {b : List Byte} {x : Chan × RangeSettings} (h : editRangeOf b = some x) :
    x.2.valid = true := by
  unfold editRangeOf at h
  split at h
  · obtain ⟨legal, rfl⟩ := accept_eq_some h
    exact legal
  · cases h

theorem editGainCodesOf_valid {b : List Byte} {x : Chan × GainCodes} (h : editGainCodesOf b = some x) :
    x.2.valid = true := by
  unfold editGainCodesOf at h
  split at h
  · obtain ⟨legal, rfl⟩ := accept_eq_some h
    exact legal
  · cases h

theorem editWeightingOf_legal {b : List Byte} {x : Nat × Nat × Coeffs} (h : editWeightingOf b = some x) :
    x.2.2.legal := by
  obtain ⟨-, rfl⟩ := accept_eq_some h
  exact ⟨signed32_legal b 2, signed32_legal b 6, signed32_legal b 10, signed32_legal b 14, signed32_legal b 18⟩

theorem entryLimitOf_legal {b : List Byte} {i : Nat} {l : Option Nat} (h : entryLimitOf b i = some l) :
    limitLegal l := by
  unfold entryLimitOf at h
  split at h
  · cases h; trivial
  · obtain ⟨legal, rfl⟩ := accept_eq_some h
    simpa [limitLegal] using legal
  · cases h

theorem editLimitsOf_legal {b : List Byte} {x : Fin 16 × ScheduleEntry} (h : editLimitsOf b = some x) :
    x.2.legal := by
  unfold editLimitsOf at h
  split at h
  next valid leq lmax peak _ leqRead lmaxRead peakRead =>
    split at h
    · obtain ⟨legal, rfl⟩ := accept_eq_some h
      simp only [Bool.and_eq_true, decide_eq_true_eq] at legal
      obtain ⟨⟨⟨-, start⟩, stop⟩, order⟩ := legal
      exact ⟨start, stop, order, entryLimitOf_legal leqRead, entryLimitOf_legal lmaxRead,
        entryLimitOf_legal peakRead⟩
    · cases h
  · cases h

theorem editIntervalOf_legal {b : List Byte} {x : Nat × Nat} (h : editIntervalOf b = some x) :
    (x.1 = 1 ∨ x.1 = 10 ∨ x.1 = 60) ∧ 1 ≤ x.2 ∧ x.2 ≤ 60 := by
  obtain ⟨legal, rfl⟩ := accept_eq_some h
  simpa [and_assoc, or_assoc] using legal

theorem editActivityOf_legal {b : List Byte} {x : ActivityMode × Bool × Nat} (h : editActivityOf b = some x) :
    x.2.2 ≤ 5000 := by
  unfold editActivityOf at h
  split at h
  · obtain ⟨legal, rfl⟩ := accept_eq_some h
    simpa using legal
  · cases h

/-! ### A legal copy stays legal under an edit -/

theorem Quad.forall_get_set {α : Type} {p : α → Prop} {q : Quad α} {c : Chan} {x : α} (hx : p x)
    (hq : ∀ d, p (q.get d)) (d : Chan) : p ((q.set c x).get d) := by
  rw [Quad.get_set]
  split
  · exact hx
  · exact hq d

theorem WeightingSet.legal_setSection {w : WeightingSet} (hw : w.legal) (i : Nat) {x : Coeffs} (hx : x.legal) :
    (w.setSection i x).legal := by
  obtain ⟨first, second, third⟩ := hw
  unfold WeightingSet.setSection
  split
  · exact ⟨hx, second, third⟩
  · exact ⟨first, hx, third⟩
  · exact ⟨first, second, hx⟩
  · exact ⟨first, second, third⟩

namespace Settings.Legal

variable {s : Settings} (legal : s.Legal)
include legal

theorem writeChannel {x : Chan × ChannelSettings} (hx : x.2.valid = true) : (writeChannel x s).Legal :=
  { legal with chan := Quad.forall_get_set (p := fun v : ChannelSettings => v.valid = true) hx legal.chan }

theorem writeRange {x : Chan × RangeSettings} (hx : x.2.valid = true) : (writeRange x s).Legal :=
  { legal with range := Quad.forall_get_set (p := fun v : RangeSettings => v.valid = true) hx legal.range }

theorem writeGainCodes {x : Chan × GainCodes} (hx : x.2.valid = true) : (writeGainCodes x s).Legal :=
  { legal with codes := Quad.forall_get_set (p := fun v : GainCodes => v.valid = true) hx legal.codes }

theorem writeWeighting {x : Nat × Nat × Coeffs} (hx : x.2.2.legal) : (writeWeighting x s).Legal := by
  obtain ⟨first, second, third⟩ := legal.weighting
  unfold Machine.writeWeighting
  split
  · exact { legal with weighting := ⟨WeightingSet.legal_setSection first _ hx, second, third⟩ }
  · exact { legal with weighting := ⟨first, WeightingSet.legal_setSection second _ hx, third⟩ }
  · exact { legal with weighting := ⟨first, second, WeightingSet.legal_setSection third _ hx⟩ }
  · exact legal

theorem writeLimits {x : Fin 16 × ScheduleEntry} (hx : x.2.legal) : (writeLimits x s).Legal where
  __ := legal
  schedule j := by
    unfold Machine.writeLimits
    dsimp only [Fin.getElem_fin]
    rw [Vector.getElem_set]
    split
    · exact hx
    · exact legal.schedule j

theorem writeInterval {x : Nat × Nat} (hx : (x.1 = 1 ∨ x.1 = 10 ∨ x.1 = 60) ∧ 1 ≤ x.2 ∧ x.2 ≤ 60) :
    (writeInterval x s).Legal :=
  { legal with base := hx.1, factor := hx.2 }

theorem writeActivity {x : ActivityMode × Bool × Nat} (hx : x.2.2 ≤ 5000) : (writeActivity x s).Legal :=
  { legal with guard := hx }

end Settings.Legal

theorem ChannelSettings.valid_withK {v : ChannelSettings} (hv : v.valid = true) {k : Int} (low : -10000 ≤ k)
    (high : k ≤ 15000) : ({ v with k } : ChannelSettings).valid = true := by
  simp only [ChannelSettings.valid, Bool.and_eq_true, decide_eq_true_eq] at hv ⊢
  simp_all

/-! ### The reporting settings (R170) -/

/-- The reporting settings are what SET_REPORTING accepts. -/
structure Reporting.Legal (r : Reporting) : Prop where
  period : 100 ≤ r.livePeriod ∧ r.livePeriod ≤ 10000
  items : 1 ≤ r.items.length ∧ r.items.length ≤ 8 ∧ r.items.Nodup

theorem liveItemsOf_length {codes : List Byte} {items : List LiveItem} (h : liveItemsOf codes = some items) :
    items.length = codes.length := by
  induction codes generalizing items with
  | nil => cases h; rfl
  | cons c codes ih =>
    change (match liveItemOf c.toNat, liveItemsOf codes with
      | some i, some is => some (i :: is)
      | _, _ => none) = some items at h
    split at h
    next i is _ rest => cases h; simp [ih rest]
    next => cases h

theorem distinctItems_iff (items : List LiveItem) : distinctItems items = true ↔ items.Nodup := by
  induction items with
  | nil => simp [distinctItems]
  | cons i rest ih => simp [distinctItems, ih]

theorem setReportingOf_legal {b : List Byte} (length : b.length = 15) {r : Reporting}
    (h : setReportingOf b = some r) : r.Legal := by
  unfold setReportingOf at h
  split at h
  next items found =>
    obtain ⟨legal, rfl⟩ := accept_eq_some h
    simp only [Bool.and_eq_true, decide_eq_true_eq] at legal
    obtain ⟨⟨⟨-, low⟩, high⟩, distinct⟩ := legal
    have count : items.length = field8 b 6 := by
      rw [liveItemsOf_length found, List.length_take, List.length_drop]; omega
    exact ⟨by unfold clamp; dsimp only; omega, by dsimp only; omega, by dsimp only; omega,
      (distinctItems_iff items).1 distinct⟩
  next => cases h

end Sys2Proof.Machine
end

section
/-! PROOFS. What the operations outside a block end leave unchanged, and the principle by which what every part of a command
keeps, a step keeps. -/

namespace Sys2Proof.Machine

/-! ### Frames of the operations outside a block end -/

section Frames
variable (s : State)

theorem resumeInput_frame (gap : Nat) :
    s.resumeInput gap =
      { s with port := (s.resumeInput gap).port, report := (s.resumeInput gap).report
               fifo := (s.resumeInput gap).fifo } := by
  unfold State.resumeInput
  split
  next => rw [offer_frame]
  next => rfl

theorem handleFrame_frame (x1 x2 x3 x4 : Sample) (act : Bool) :
    s.handleFrame x1 x2 x3 x4 act =
      { s with
        port := (s.handleFrame x1 x2 x3 x4 act).port, range := (s.handleFrame x1 x2 x3 x4 act).range
        unit := (s.handleFrame x1 x2 x3 x4 act).unit, blockWork := (s.handleFrame x1 x2 x3 x4 act).blockWork } := by
  unfold State.handleFrame State.countFrame State.sampleAct State.sampleChannel
  dsimp only
  repeat' split
  all_goals rfl

theorem markGap_frame : s.markGap = { s with interval := s.interval.map fun iv => { iv with gap := true } } := by
  unfold State.markGap
  cases found : s.interval with
  | none => simp only [Option.map_none]; rw [← found]
  | some iv => rfl

theorem stallEffect_frame (x : StallEffect) :
    x.take s =
      { s with
        monitor := (x.take s).monitor, capture := (x.take s).capture, check := (x.take s).check
        range := (x.take s).range, unit := (x.take s).unit, store := (x.take s).store, report := (x.take s).report
        fifo := (x.take s).fifo } := by
  cases x with
  | closeEpisode c => exact (closeEpisode_frame s c .stalled s.clock.now).trans (by rw [StallEffect.take]; simp)
  | endCheck => exact (cutCheck_frame s .stalled s.clock.now).trans (by rw [StallEffect.take]; simp)

theorem stallEffects_frame (pick : Nat → Nat) (l : List StallEffect) :
    s.eachFreely pick l StallEffect.take =
      { s with
        monitor := (s.eachFreely pick l StallEffect.take).monitor
        capture := (s.eachFreely pick l StallEffect.take).capture
        check := (s.eachFreely pick l StallEffect.take).check
        range := (s.eachFreely pick l StallEffect.take).range, unit := (s.eachFreely pick l StallEffect.take).unit
        store := (s.eachFreely pick l StallEffect.take).store
        report := (s.eachFreely pick l StallEffect.take).report, fifo := (s.eachFreely pick l StallEffect.take).fifo
        choice := (s.eachFreely pick l StallEffect.take).choice } :=
  eachFreely_keeps (fun t => t = { s with
      monitor := t.monitor, capture := t.capture, check := t.check, range := t.range, unit := t.unit
      store := t.store, report := t.report, fifo := t.fifo, choice := t.choice }) pick l _
    (fun t n ht => by rw [ht]) (fun x _ t ht => by rw [stallEffect_frame t x, ht]) s rfl

theorem enterStalled_frame (pick : Nat → Nat) :
    s.enterStalled pick =
      { s with
        port := { s.port with stalled := true }, interval := s.interval.map fun iv => { iv with gap := true }
        monitor := (s.enterStalled pick).monitor, capture := (s.enterStalled pick).capture
        check := (s.enterStalled pick).check, range := (s.enterStalled pick).range
        unit := (s.enterStalled pick).unit, store := (s.enterStalled pick).store
        report := (s.enterStalled pick).report, fifo := (s.enterStalled pick).fifo
        choice := (s.enterStalled pick).choice } := by
  unfold State.enterStalled
  rw [stallEffects_frame, markGap_frame, offer_frame]

theorem resetOffers_frame (pick : Nat → Nat) :
    s.resetOffers pick =
      { s with
        monitor := (s.resetOffers pick).monitor, capture := (s.resetOffers pick).capture
        check := (s.resetOffers pick).check, range := (s.resetOffers pick).range
        unit := (s.resetOffers pick).unit, store := (s.resetOffers pick).store
        report := (s.resetOffers pick).report, fifo := (s.resetOffers pick).fifo
        choice := (s.resetOffers pick).choice } := by
  unfold State.resetOffers
  rw [cutCheck_frame, resetCapture_frame, closeAll_frame]

/-- The offers of a soft reset leave of a state what a single state can be compared with. -/
theorem resetOffers_withoutChoosing_frame (pick : Nat → Nat) (w : State)
    (hw : w = s.withoutChoosing (State.resetOffers pick)) :
    w =
      { s with
        monitor := w.monitor, capture := w.capture, check := w.check, range := w.range, unit := w.unit
        store := w.store, report := w.report, fifo := w.fifo, choice := w.choice } := by
  subst hw
  unfold State.withoutChoosing
  rw [resetOffers_frame]
  rfl

/-- The reset of the units, after offers that leave the rest of the state. -/
theorem resetUnits_frame (w : State)
    (hw : w = { s with
      monitor := w.monitor, capture := w.capture, check := w.check, range := w.range, unit := w.unit
      store := w.store, report := w.report, fifo := w.fifo, choice := w.choice }) :
    w.resetUnits =
      { s with
        interval := none, clock := { s.clock with entryInForce := none }
        acc := s.acc.softReset s.clock.isSet, store := w.resetUnits.store.revert, alert := s.alert.softReset
        monitor := w.resetUnits.monitor, capture := w.resetUnits.capture, check := w.resetUnits.check
        range := w.resetUnits.range, unit := w.resetUnits.unit, report := w.resetUnits.report
        fifo := w.resetUnits.fifo, choice := w.resetUnits.choice } := by
  conv_lhs => rw [hw]
  rfl

theorem softResetRule_state (pick : Nat → Nat) (body : List Byte) :
    (softResetRule pick body s).state =
      (State.withoutChoosing (State.resetOffers pick) { s with report := s.report.softReset }).resetUnits := rfl

theorem softResetRule_frame (pick : Nat → Nat) (body : List Byte) :
    (softResetRule pick body s).state =
      { s with
        interval := none, clock := { s.clock with entryInForce := none }
        acc := s.acc.softReset s.clock.isSet, store := (softResetRule pick body s).state.store.revert
        alert := s.alert.softReset
        monitor := (softResetRule pick body s).state.monitor, capture := (softResetRule pick body s).state.capture
        check := (softResetRule pick body s).state.check, range := (softResetRule pick body s).state.range
        unit := (softResetRule pick body s).state.unit, report := (softResetRule pick body s).state.report
        fifo := (softResetRule pick body s).state.fifo, choice := (softResetRule pick body s).state.choice } := by
  rw [softResetRule_state]
  exact resetUnits_frame { s with report := s.report.softReset } _
    (resetOffers_withoutChoosing_frame _ pick _ rfl)

theorem wait_frame (cmd : Command) : s.wait cmd = { s with link := (s.wait cmd).link } := by
  unfold State.wait
  split <;> rfl

end Frames

/-! ### What a command keeps -/

/-- The state that a power-on reset leaves. -/
def powerOnState (rate1 rate0 : Bool) (s : State) : State :=
  { State.reset with
    link := { State.reset.link with rate := rateCode rate1 rate0 }
    memory := s.memory
    choice := s.choice
    pending := s.pending }

theorem exec_powerOnReset (rate1 rate0 : Bool) (s : State) :
    exec (.powerOnReset rate1 rate0) s = .next (powerOnState rate1 rate0 s) := rfl

/-- What the steps of a block end and its end keep. A step that does not touch what `P` speaks of keeps it. -/
structure BlockKept (P : State → Prop) : Prop where
  choice : ∀ s n, P s → P { s with choice := n } := by intros; assumption
  work : ∀ s w, P s → P { s with blockWork := w } := by intros; assumption
  range : ∀ s c, P s → P (s.setRange c ((s.range.get c).blockEnd (s.active.range.get c) (s.active.codes.get c))) := by
    intros; assumption
  weigh : ∀ s c, P s → P (s.handBlock c) := by intro s c h; rw [handBlock_frame]; exact h
  clock : ∀ s, P s → P s.clockStep := by intro s h; rw [clockStep_frame]; exact h
  classify : ∀ s, P s → P s.classifyStep := by intro s h; rw [classifyStep_frame]; exact h
  engine : ∀ s, P s → P s.engineStep := by intro s h; rw [engineStep_frame]; exact h
  accumulate : ∀ s, P s → P s.accumulateStep := by intro s h; rw [accumulateStep_frame]; exact h
  peak : ∀ s c, P s → P (s.peakStep c) := by intro s c h; rw [peakStep_frame]; exact h
  budget : ∀ s c, P s → P (s.budgetStep c) := by intro s c h; rw [budgetStep_frame]; exact h
  episode : ∀ s c, P s → P (s.episodeStep c) := by intro s c h; rw [episodeStep_frame]; exact h
  capture : ∀ s c, P s → P (s.captureStep c) := by intro s c h; rw [captureStep_frame]; exact h
  boundary : ∀ s, P s → P (s.boundaryStep Config.pick) := by intro s h; rw [boundaryStep_frame]; exact h
  alert : ∀ s, P s → P s.alertStep := by intros; assumption
  live : ∀ s, P s → P s.liveStep := by intro s h; rw [liveStep_frame]; exact h
  ended : ∀ s, P s → P s.endOfBlock := by intros; assumption

namespace BlockKept

variable {P : State → Prop} (k : BlockKept P)
include k

theorem task (t : Task) (s : State) (hs : P s) : P (runTask Config.pick t s) := by
  cases t with
  | range c => exact k.range s c hs
  | weigh c => exact k.weigh s c hs
  | clock => exact k.clock s hs
  | classify => exact k.classify s hs
  | engine => exact k.engine s hs
  | accumulate => exact k.accumulate s hs
  | peak c => exact k.peak s c hs
  | budget c => exact k.budget s c hs
  | episode c => exact k.episode s c hs
  | capture c => exact k.capture s c hs
  | boundary => exact k.boundary s hs
  | alert => exact k.alert s hs
  | live => exact k.live s hs

theorem finish (s : State) (hs : P s) : P (s.finishBlock Config.pick) :=
  finishBlock_keeps P _ k.choice k.work k.task k.ended s hs

theorem upTo (s : State) (t : Task) (falls : State → Bool) (hs : P s) : P (s.takeUpTo Config.pick t falls) :=
  takeUpTo_keeps P _ k.choice k.work k.task t falls s hs

end BlockKept

/-- What the rules of the link commands keep, as rules of the command `i`. A rule that does not touch what `P` speaks of keeps
it. -/
structure RuleKept (P : State → Prop) (i : Instr) : Prop where
  softReset : ∀ s body, P s → P (softResetRule Config.pick body s).state := by
    intro s body h; rw [softResetRule_frame]; exact h
  setTime : ∀ s t, (∃ tag body, i = .setTime tag body) → t.valid = true → P s →
    P { s with clock := { s.clock with pendingLoad := some t } } := by
    intros; assumption
  hold : ∀ s, s.acc.phase = .measuring → P s → P { s with acc := { s.acc with holdPending := true } } := by
    intros; assumption
  unopen : ∀ s, s.acc.phase = .held → P s → P { s with acc := { s.acc with openingPending := false } } := by
    intros; assumption
  reopen : ∀ s, s.acc.phase = .held → P s → P { s with acc := { s.acc with openingPending := true } } := by
    intros; assumption
  unhold : ∀ s, s.acc.phase = .measuring → P s → P { s with acc := { s.acc with holdPending := false } } := by
    intros; assumption
  restart : ∀ s, s.acc.phase = .measuring → P s → P { s with acc := { s.acc with restartPending := true } } := by
    intros; assumption
  edit : ∀ s x, (s.store.staged.Legal → x.Legal) → s.store.commitPending = false → P s →
    P { s with store := { s.store with staged := x } } := by intros; assumption
  commit : ∀ s, (∃ tag body, i = .commit tag body) → s.acc.phase = .measuring → P s →
    P { s with store := { s.store with commitPending := true } } := by intros; assumption
  commitNow : ∀ s, (∃ tag body, i = .commit tag body) → s.acc.phase ≠ .measuring → P s →
    P (s.commitAtOnce s.clock.now) := by intro s _ _ h; rw [commitAtOnce_frame]; exact h
  discard : ∀ s, P s → P { s with store := s.store.revert } := by intros; assumption
  setAlert : ∀ s m h, 50 ≤ h → h ≤ 2000 → P s →
    P { s with alert := { s.alert with pendingSetting := some (m, h) } } := by intros; assumption
  setCapture : ∀ s protect pre tail, P s →
    P { s with capture := { s.capture with protect := protect, preLength := pre, tailLength := tail } } := by
    intros; assumption
  configure : ∀ s r, r.Legal → P s → P { s with report := s.report.configure r } := by intros; assumption
  choose : ∀ s, P s → P s.transmit := by intro s h; rw [transmit_frame]; exact h
  readRecord : ∀ s, P s → P { s with fifo := s.fifo.tail } := by intros; assumption
  readEvent : ∀ s, P s → P { s with report := s.report.afterNotice s.report.events.tail } := by intros; assumption
  release : ∀ s (j : Fin 16) d, s.capture.regions[j] = .stored d → P s →
    P { s with capture := s.capture.release j d } := by intros; assumption
  reclaim : ∀ s, (∃ tag body, i = .reclaimMemory tag body) → P s →
    P { s with
      memory := reclaimedMemory Config.lentMemory s, choice := s.choice + 1
      capture := { s.capture.emptyRings with lend := .owned } } := by intros; assumption
  startCheck : ∀ s body p, startCheckOf body = some p → s.check.phase = .idle → s.port.stalled = false → P s →
    P (s.beginCheck p) := by intro s _ p _ _ _ h; rw [beginCheck_frame]; exact h
  abortCheck : ∀ s, P s → P (s.cutCheck .aborted s.clock.now) := by intro s h; rw [cutCheck_frame]; exact h

theorem RuleKept.edited {P : State → Prop} {i : Instr} (k : RuleKept P i) {α : Type} (read : List Byte → Option α)
    (write : α → Settings → Settings) (legal : ∀ {body x} {st : Settings}, read body = some x → st.Legal →
      (write x st).Legal) (body : List Byte) (s : State) (hs : P s) : P (editRule read write body s).state := by
  obtain e | ⟨x, found, free, e⟩ := editRule_cases body s read write <;> rw [e]
  · exact hs
  · exact k.edit s _ (legal found) free hs

/-- What the effects of the rules keep, the rule of the command `i` keeps. -/
theorem RuleKept.state {P : State → Prop} {i : Instr} (k : RuleKept P i) {x : RuleCommand}
    (hx : ruleCommand i = some x) (length : commandLength x.kind = some x.body.length) (s : State) (hs : P s) :
    P (x.rule x.body s).state := by
  cases i <;> simp only [ruleCommand, Option.some.injEq, reduceCtorEq] at hx <;> subst hx <;> dsimp only at length ⊢
  case softReset tag body => exact k.softReset s body hs
  case setTime tag body =>
    obtain e | ⟨t, valid, e⟩ := setTimeRule_cases body s <;> rw [e]
    exacts [hs, k.setTime s t ⟨tag, body, rfl⟩ valid hs]
  case hold tag body =>
    obtain e | ⟨phase, e⟩ | ⟨phase, e⟩ := holdRule_cases body s <;> rw [e]
    exacts [hs, k.hold s phase hs, k.unopen s phase hs]
  case resume tag body =>
    obtain e | ⟨phase, e⟩ | ⟨phase, e | e⟩ := resumeRule_cases body s <;> rw [e]
    exacts [hs, k.reopen s phase hs, k.unhold s phase hs, k.restart s phase hs]
  case editChannel tag body =>
    exact k.edited _ _ (fun h legal => legal.writeChannel (editChannelOf_valid h)) body s hs
  case editRange tag body => exact k.edited _ _ (fun h legal => legal.writeRange (editRangeOf_valid h)) body s hs
  case editGainCodes tag body =>
    exact k.edited _ _ (fun h legal => legal.writeGainCodes (editGainCodesOf_valid h)) body s hs
  case editWeighting tag body =>
    exact k.edited _ _ (fun h legal => legal.writeWeighting (editWeightingOf_legal h)) body s hs
  case editLimits tag body => exact k.edited _ _ (fun h legal => legal.writeLimits (editLimitsOf_legal h)) body s hs
  case editInterval tag body =>
    exact k.edited _ _ (fun h legal => legal.writeInterval (editIntervalOf_legal h)) body s hs
  case editActivity tag body =>
    exact k.edited _ _ (fun h legal => legal.writeActivity (editActivityOf_legal h)) body s hs
  case commit tag body =>
    obtain ⟨phase, e⟩ | ⟨phase, e⟩ := commitRule_cases body s <;> rw [e]
    exacts [k.commit s ⟨tag, body, rfl⟩ phase hs, k.commitNow s ⟨tag, body, rfl⟩ phase hs]
  case discard tag body => exact k.discard s hs
  case setAlert tag body =>
    obtain e | ⟨m, h, low, high, e⟩ := setAlertRule_cases body s <;> rw [e]
    exacts [hs, k.setAlert s m h low high hs]
  case setCapture tag body => rw [setCaptureRule_frame]; exact k.setCapture s _ _ _ hs
  case setReporting tag body =>
    have fifteen : body.length = 15 := by simpa [commandLength] using length.symm
    obtain e | ⟨r, found, e | e⟩ := setReportingRule_cases body s <;> rw [e]
    · exact hs
    · exact k.configure s r (setReportingOf_legal fifteen found) hs
    · exact k.choose _ (k.configure s r (setReportingOf_legal fifteen found) hs)
  case readRecord tag body => rw [readRecordRule_state]; exact k.readRecord s hs
  case readEvent tag body =>
    obtain e | e := readEventRule_cases body s <;> rw [e]
    exacts [hs, k.readEvent s hs]
  case releaseCapture tag body =>
    obtain e | ⟨j, d, stored, e⟩ := releaseCaptureRule_cases body s <;> rw [e]
    exacts [hs, k.release s j d stored hs]
  case reclaimMemory tag body =>
    obtain e | ⟨-, e⟩ := reclaimMemoryRule_cases body s Config.lentMemory <;> rw [e]
    exacts [hs, k.reclaim s ⟨tag, body, rfl⟩ hs]
  case startCheck tag body =>
    obtain e | ⟨p, found, idle, running, e⟩ := startCheckRule_cases body s <;> rw [e]
    exacts [hs, k.startCheck s body p found idle running hs]
  case abortCheck tag body =>
    obtain e | e := abortCheckRule_cases body s <;> rw [e]
    exacts [hs, k.abortCheck s hs]
  case readSettings tag body => rw [readSettingsRule_state]; exact hs
  case ident | status | snapshot | listCaptures => exact hs

/-- What each part of the command `i` keeps: whole block ends and steps up to an event, the sample port, the receiver and the
command queue, the rules with their replies, and the completions. `R` is `P` itself for an invariant; a property that a block end
put due does not keep asks of the sample port only the `R` that it claims of the command. -/
structure KeptBy (P R : State → Prop) (i : Instr) : Prop where
  same : ∀ s, P s → R s := by intros; assumption
  powerOn : ∀ rate1 rate0 s, i = .powerOnReset rate1 rate0 → P s → P (powerOnState rate1 rate0 s) := by
    intros; assumption
  finish : ∀ s, P s → P (s.finishBlock Config.pick)
  upTo : ∀ s task falls, P s → P (s.takeUpTo Config.pick task falls)
  frame : ∀ s gap x1 x2 x3 x4 act, i = .sampleFrame x1 x2 x3 x4 act gap → s.blockWork = none → P s →
    R ((s.resumeInput gap).handleFrame x1 x2 x3 x4 act) := by
    intro s _ _ _ _ _ _ _ _ h; rw [handleFrame_frame, resumeInput_frame]; exact h
  stall : ∀ s, s.blockWork = none → s.port.stalled = false → P s → P (s.enterStalled Config.pick) := by
    intro s _ _ h; rw [enterStalled_frame]; exact h
  receive : ∀ s b, P s → P { s with link := s.link.receive b } := by intros; assumption
  complete : ∀ s kind tag body sum, P s → P { s with link := s.link.complete kind tag body sum } := by
    intros; assumption
  expire : ∀ s, P s → P { s with link := s.link.expire } := by intros; assumption
  wait : ∀ s cmd, P s → P (s.wait cmd) := by intro s _ h; rw [wait_frame]; exact h
  taking : ∀ s cmd l, s.link.taking cmd = some l → P s → P { s with link := l } := by intros; assumption
  reply : ∀ s kind tag body, s.canBegin = true → P s → P (s.reply kind tag body) := by
    intro s _ _ _ _ h; rw [reply_frame]; exact h
  rule : ∀ x, ruleCommand i = some x → ∀ s, commandLength x.kind = some x.body.length → s.canBegin = true → P s →
    P ((x.rule x.body s).send x.kind x.tag)
  lend : ∀ s tag, s.canBegin = true → s.capture.lend = .owned → P s →
    P ((Answer.done { s with capture := { s.capture with lend := .lending } }).send 0x1A tag).drain := by
    intro s _ _ _ h; rw [drain_frame, Answer.send, reply_frame]; exact h
  read : ∀ s tag body j, s.canBegin = true → s.capture.readJob tag body = .inr j → P s →
    P (State.arbitrate
      { s with capture := { s.capture with job := some j }, report := { s.report with reserved := 1 } }) := by
    intro s _ _ _ _ _ h; rw [arbitrate_frame]; exact h
  transmit : ∀ s, P s → P (State.transmit { s with report := { s.report with sending := none } }) := by
    intro s h; rw [transmit_frame]; exact h
  writeDone : ∀ s e, i = .memoryWriteDone → s.capture.inFlight = some (.write e) → P s → P (s.completeWrite e) := by
    intro s e _ _ h; rw [completeWrite_frame]; exact h
  readDone : ∀ s region position, s.capture.inFlight = some (.read region position) → P s →
    P (s.completeRead region position) := by intro s _ _ _ h; rw [completeRead_frame]; exact h

/-- A rule that keeps `P` keeps it with its reply, if the reply does. -/
theorem RuleKept.send {P : State → Prop} {i : Instr} (k : RuleKept P i)
    (reply : ∀ s kind tag body, P s → P (s.reply kind tag body)) (x : RuleCommand) (hx : ruleCommand i = some x)
    (s : State) (length : commandLength x.kind = some x.body.length) (_ : s.canBegin = true) (hs : P s) :
    P ((x.rule x.body s).send x.kind x.tag) :=
  reply _ _ _ _ (k.state hx length s hs)

/-- The completion of a block leaves no step due. -/
theorem finishBlock_blockWork (pick : Nat → Nat) (s : State) : (s.finishBlock pick).blockWork = none := by
  unfold State.finishBlock
  split
  next => rfl
  next none => exact none

theorem begin_cases {s s' : State} {cmd : Command} (h : s.begin cmd = some s') :
    s.canBegin = true ∧ ∃ l, s.link.taking cmd = some l ∧ s' = { s with link := l } := by
  unfold State.begin at h
  split at h
  next can =>
    obtain ⟨l, taken, rfl⟩ := Option.map_eq_some_iff.1 h
    exact ⟨can, l, taken, rfl⟩
  next => cases h

namespace KeptBy

variable {P R : State → Prop} {i : Instr} (k : KeptBy P R i)
include k

theorem settle (s : State) (hs : P s) : P (s.settle Config.pick) := by
  unfold State.settle
  split
  next => exact k.finish s hs
  next => exact hs

/-- A command that begins or waits keeps what its beginning keeps. -/
theorem beginOrWait {s : State} (hs : P s) (cmd : Command) (f : State → State)
    (hf : ∀ s', s'.canBegin = true → P s' → P (f s')) :
    P (match s.begin cmd with
      | some s' => f s'
      | none => s.wait cmd) := by
  cases begun : s.begin cmd with
  | none => exact k.wait s cmd hs
  | some s' =>
    obtain ⟨can, l, taken, rfl⟩ := begin_cases begun
    exact hf _ can (k.taking s cmd l taken hs)

theorem refuse (s : State) (kind tag : Byte) (status : Status) (can : s.canBegin = true) (hs : P s) :
    P ((Answer.refuse s status).send kind tag) := k.reply s _ _ _ can hs

theorem runRule {x : RuleCommand} (hx : ruleCommand i = some x) (s : State) (hs : P s) :
    P (s.runCommand Config.pick x.kind x.tag x.body x.rule) := by
  refine k.beginOrWait (k.settle s hs) ⟨x.kind, x.tag, x.body⟩
    (fun s' => (answer x.kind x.body x.rule s').send x.kind x.tag) fun s' can hs' => ?_
  unfold answer
  split
  next length => exact k.rule x hx s' length can hs'
  next => exact k.refuse s' _ _ _ can hs'

theorem runLend (tag : Byte) (body : List Byte) (s : State) (hs : P s) :
    P (s.runCommandThen Config.pick 0x1A tag body lendMemoryRule State.drain) := by
  refine k.beginOrWait (k.settle s hs) ⟨0x1A, tag, body⟩
    (fun s' => if (answer 0x1A body lendMemoryRule s').status = .ok then
        ((answer 0x1A body lendMemoryRule s').send 0x1A tag).drain
      else (answer 0x1A body lendMemoryRule s').send 0x1A tag) fun s' can hs' => ?_
  unfold answer lendMemoryRule
  split
  next =>
    cases lend : s'.capture.lend with
    | owned => exact k.lend s' tag can lend hs'
    | lending => exact k.refuse s' _ _ _ can hs'
    | lent => exact k.refuse s' _ _ _ can hs'
  next => exact k.refuse s' _ _ _ can hs'

theorem runRead (tag : Byte) (body : List Byte) (s : State) (can : s.canBegin = true) (hs : P s) :
    P (s.beginRead tag body) := by
  unfold State.beginRead
  split
  next =>
    cases job : s.capture.readJob tag body with
    | inl status => exact k.refuse s _ _ _ can hs
    | inr j => exact k.read s tag body j can job hs
  next => exact k.refuse s _ _ _ can hs

/-- What every part of a command keeps, the command keeps. -/
theorem exec {s t : State} (h : Machine.exec i s = .next t) (hs : P s) : R t := by
  cases hr : ruleCommand i with
  | some x =>
    rw [exec_ruleCommand hr] at h
    cases h
    exact k.same _ (k.runRule hr s hs)
  | none =>
    cases i with
    | powerOnReset rate1 rate0 => cases h; exact k.same _ (k.powerOn rate1 rate0 s rfl hs)
    | sampleFrame x1 x2 x3 x4 act gap =>
      cases h; exact k.frame _ gap x1 x2 x3 x4 act rfl (finishBlock_blockWork _ s) (k.finish s hs)
    | blockEnd => cases h; exact k.same _ (k.finish s hs)
    | windowEnd c => cases h; exact k.same _ (k.upTo s _ _ hs)
    | episodeReleased c => cases h; exact k.same _ (k.upTo s _ _ hs)
    | togglePoint => cases h; exact k.same _ (k.upTo s _ _ hs)
    | captureTailEnd c => cases h; exact k.same _ (k.upTo s _ _ hs)
    | captureFull c => cases h; exact k.same _ (k.upTo s _ _ hs)
    | checkSettled => cases h; exact k.same _ (k.upTo s _ _ hs)
    | checkResult => cases h; exact k.same _ (k.upTo s _ _ hs)
    | livePoint => cases h; exact k.same _ (k.upTo s _ _ hs)
    | stallTimeout =>
      cases h; dsimp only
      split
      next => exact k.same _ (k.finish s hs)
      next running => exact k.same _ (k.stall _ (finishBlock_blockWork _ s) (by simpa using running) (k.finish s hs))
    | frameReceived check =>
      cases h; dsimp only
      split
      next => exact k.same _ (k.complete _ _ _ _ _ (k.settle s hs))
      next => exact k.same _ (k.settle s hs)
    | receiveTimeout => cases h; exact k.same _ (k.expire _ (k.settle s hs))
    | unknownKind kind tag body =>
      cases h; dsimp only
      split
      next =>
        exact k.same _ <| k.beginOrWait (k.settle s hs) ⟨kind, tag, body⟩
          (fun s' => s'.reply 0x80 tag (u8 Status.unknownKind.code)) fun s' can hs' => k.reply s' _ _ _ can hs'
      next => exact k.same _ (k.settle s hs)
    | readCapture tag body =>
      cases h
      exact k.same _ <| k.beginOrWait (k.settle s hs) ⟨0x18, tag, body⟩ (fun s' => s'.beginRead tag body)
        fun s' can hs' => k.runRead tag body s' can hs'
    | lendMemory tag body => cases h; exact k.same _ (k.runLend tag body s hs)
    | memoryWriteDone =>
      have settled := k.settle s hs
      change execMemoryWriteDone s = _ at h
      unfold execMemoryWriteDone at h
      dsimp only at h
      split at h
      next e inFlight =>
        split at h
        next => cases h; exact k.same _ (k.writeDone _ e rfl inFlight settled)
        next => cases h
      next => cases h; exact k.same _ settled
    | memoryReadDone =>
      have settled := k.settle s hs
      change execMemoryReadDone s = _ at h
      unfold execMemoryReadDone at h
      dsimp only at h
      split at h
      next region position inFlight =>
        split at h
        next => cases h; exact k.same _ (k.readDone _ region position inFlight settled)
        next => cases h
      next => cases h; exact k.same _ settled
    | transmitComplete =>
      cases h; dsimp only
      split
      next => exact k.same _ (k.transmit _ (k.settle s hs))
      next => exact k.same _ (k.settle s hs)
    | byteReceived b => cases h; exact k.same _ (k.receive _ b (k.settle s hs))
    | _ => simp [ruleCommand] at hr

end KeptBy

/-- What every command keeps, and the queue of waiting commands does not touch, a step keeps. -/
theorem step_keeps {P : State → Prop} (pending : ∀ s rest, P s → P { s with pending := rest })
    (kept : ∀ i, KeptBy P P i) {s t : State} (hs : P s) (h : step s = .next t) : P t := by
  unfold step at h
  split at h
  next c rest found => exact (kept c).exec h (pending s rest hs)
  next =>
    split at h
    next c ready => exact (kept c).exec h hs
    next => cases h; exact hs

end Sys2Proof.Machine
end

section
/-! PROOFS. The capture memory, which only a completed write and a reclaim change (R126, R138, R145, R146). -/

namespace Sys2Proof.Machine

theorem completeWrite_memory (s : State) (e : BufferEntry) :
    (s.completeWrite e).memory = Memory.writeAll s.memory (captureAddress e.region e.position) e.bytes := by
  unfold State.completeWrite; simp

/-- No step of a block end touches the memory. -/
theorem memory_blockKept (Q : List Host.Cell → Prop) : BlockKept fun s => Q s.memory where

/-- A property of the memory is kept by a command if a completed write and a reclaim keep it. -/
theorem keptBy_of_memory (Q : List Host.Cell → Prop) {i : Instr}
    (write : i = .memoryWriteDone → ∀ s e, Q s.memory → Q (State.completeWrite s e).memory)
    (reclaim : (∃ tag body, i = .reclaimMemory tag body) → ∀ s, Q s.memory →
      Q (reclaimedMemory Config.lentMemory s)) :
    KeptBy (fun s => Q s.memory) (fun s => Q s.memory) i where
  finish := (memory_blockKept Q).finish
  upTo := (memory_blockKept Q).upTo
  rule := RuleKept.send { reclaim := fun s hi => reclaim hi s }
    fun s _ _ _ h => by simpa using h
  writeDone s e hi _ := write hi s e

/-- Settles O5: a completed write is a run of writes, and a reclaimed memory is brought into the form. -/
theorem memoryHeldByStep : Obligations.MemoryHeldByStep := by
  intro s t held h
  refine step_keeps (fun _ _ hs => hs) (fun i => keptBy_of_memory (Memory.wf · = true) ?_ ?_) held h
  · intro _ s e hs
    rw [completeWrite_memory]
    exact Memory.writeAll_wf _ _ hs
  · exact fun _ s _ => Memory.ofCells_wf _

/-- Settles O14: for every other command the memory is among what the command keeps. -/
theorem onlyPortAndReclaimWriteMemory : Obligations.OnlyPortAndReclaimWriteMemory := by
  intro i s t h changed
  by_contra other
  obtain ⟨noWrite, noReclaim⟩ := not_or.1 other
  have kept : KeptBy (fun u => u.memory = s.memory) (fun u => u.memory = s.memory) i :=
    keptBy_of_memory (· = s.memory) (fun write => absurd write noWrite) (fun reclaim => absurd reclaim noReclaim)
  exact changed (kept.exec h rfl)

end Sys2Proof.Machine
end

section
/-! PROOFS. The configuration store (chapter 5, section 5.2): what each operation does to the two copies, that both stay legal,
and that a commit alone changes the active copy. -/

namespace Sys2Proof.Machine

/-! ### What each operation does to the store -/

/-- The store after a commit is applied (R81). -/
def Store.applied (st : Store) : Store := ⟨st.staged, st.staged, false⟩

/-- The store with a channel's staged K replaced (R153). -/
def Store.withStagedK (st : Store) (c : Chan) (k : Int) : Store :=
  { st with staged := { st.staged with chan := st.staged.chan.set c { st.staged.chan.get c with k } } }

theorem adjustK_store (s : State) (c : Chan) (outcome : Adjustment) (deviation : Option Int) :
    (s.adjustK c outcome deviation).store = s.store ∨
      ∃ d, outcome = .made ∧ deviation = some d ∧
        (s.adjustK c outcome deviation).store = s.store.withStagedK c (s.k c - d) := by
  unfold State.adjustK
  split
  next d => exact .inr ⟨d, rfl, rfl, rfl⟩
  next => exact .inl rfl

/-- The outcome MADE asks for a K of the range and for no commit pending (R153). -/
theorem adjustment_made {p : CheckParams} {pending : Bool} {k d : Int} {e : Ending} (deviation : e.deviation = some d)
    (made : e.adjustment p pending k = .made) : pending = false ∧ -10000 ≤ k - d ∧ k - d ≤ 15000 := by
  have direct : p.adjustment pending k (some d) = .made := by
    unfold Ending.adjustment at made
    rw [deviation] at made
    split at made
    · exact made
    · exact made
    · cases made
  unfold CheckParams.adjustment at direct
  dsimp only at direct
  repeat' split at direct
  all_goals try cases direct
  next noPending inRange =>
    exact ⟨by simpa using noPending, by omega, by omega⟩

theorem endCheck_store (s : State) (e : Ending) (counted : Nat) (stamp : Stamp) :
    (s.endCheck e counted stamp).store = s.store ∨
      ∃ c k d, e.deviation = some d ∧ s.store.commitPending = false ∧ -10000 ≤ k ∧ k ≤ 15000 ∧
        (s.endCheck e counted stamp).store = s.store.withStagedK c k := by
  unfold State.endCheck
  split
  · exact .inl rfl
  · exact .inl rfl
  next p _ _ =>
    dsimp only
    rw [offer_store]
    obtain same | ⟨d, made, deviation, new⟩ := adjustK_store (s.releaseChannel p.chan) p.chan
      (e.adjustment p s.store.commitPending (s.k p.chan)) e.deviation
    · exact .inl (same.trans (releaseChannel_store s p.chan))
    · obtain ⟨pending, low, high⟩ := adjustment_made deviation made
      exact .inr ⟨p.chan, s.k p.chan - d, d, deviation, pending, low, high, new⟩

/-- A check that is cut short adjusts no K (R153). -/
@[simp] theorem cutCheck_store (s : State) (result : CheckEnd) (stamp : Stamp) :
    (s.cutCheck result stamp).store = s.store := by
  obtain same | ⟨c, k, d, deviation, -⟩ := endCheck_store s (.cut result) s.check.measuredBlocks stamp
  · exact same
  · cases deviation

theorem engineStep_store (s : State) :
    s.engineStep.store = s.store ∨
      ∃ c k, s.store.commitPending = false ∧ -10000 ≤ k ∧ k ≤ 15000 ∧
        s.engineStep.store = s.store.withStagedK c k := by
  unfold State.engineStep
  split
  · exact .inl (cutCheck_store ..)
  · exact .inl rfl
  · exact .inl rfl
  · exact .inl rfl
  next p _ _ =>
    obtain same | ⟨c, k, -, -, rest⟩ := endCheck_store s _ (s.check.counter + 1) s.handed.report.ended
    · exact .inl same
    · exact .inr ⟨c, k, rest⟩
  · exact .inl rfl

@[simp] theorem commitCheck_store (s : State) (old new : Settings) (stamp : Stamp) :
    (s.commitCheck old new stamp).store = s.store := by
  unfold State.commitCheck
  split
  · split <;> simp
  · rfl

@[simp] theorem applyCommit_store (s : State) (atBoundary : Bool) (stamp : Stamp) :
    (s.applyCommit atBoundary stamp).store = s.store.applied := by
  unfold State.applyCommit; simp [Store.applied]

@[simp] theorem commitAtOnce_store (s : State) (stamp : Stamp) : (s.commitAtOnce stamp).store = s.store.applied := by
  unfold State.commitAtOnce; simp

/-- What the boundary operation leaves of a store once it enters HELD or MEASURING (R84). -/
def Store.atBoundary (st : Store) : Store := if st.commitPending then st.applied else st

@[simp] theorem enterHeld_store (s : State) (pick : Nat → Nat) (closed : Option Nat) :
    (s.enterHeld pick closed).store = s.store.atBoundary := by
  unfold State.enterHeld Store.atBoundary
  dsimp only
  split <;> simp_all

@[simp] theorem enterMeasuring_store (s : State) (pick : Nat → Nat) :
    (s.enterMeasuring pick).store = s.store.atBoundary := by
  unfold State.enterMeasuring Store.atBoundary
  dsimp only
  split <;> simp

theorem boundaryStep_store (s : State) (pick : Nat → Nat) :
    (s.boundaryStep pick).store = s.store ∨ (s.boundaryStep pick).store = s.store.atBoundary := by
  unfold State.boundaryStep State.openingBoundary
  dsimp only
  repeat' split
  all_goals simp

/-- What a step of a block end does to the store. -/
theorem runTask_store (pick : Nat → Nat) (t : Task) (s : State) :
    (runTask pick t s).store = s.store ∨
      (∃ c k, s.store.commitPending = false ∧ -10000 ≤ k ∧ k ≤ 15000 ∧
        (runTask pick t s).store = s.store.withStagedK c k) ∨
      (runTask pick t s).store = s.store.atBoundary := by
  cases t with
  | engine => exact (engineStep_store s).imp_right .inl
  | boundary => exact (boundaryStep_store s pick).imp_right .inr
  | _ => exact .inl (by simp [runTask])

@[simp] theorem stallEffect_store (x : StallEffect) (s : State) : (x.take s).store = s.store := by
  cases x <;> simp [StallEffect.take]

@[simp] theorem enterStalled_store (s : State) (pick : Nat → Nat) : (s.enterStalled pick).store = s.store := by
  unfold State.enterStalled
  refine eachFreely_keeps (fun u => u.store = s.store) pick _ _ (fun _ _ hu => hu)
    (fun x _ u hu => (stallEffect_store x u).trans hu) _ ?_
  rw [markGap_frame, offer_frame]

@[simp] theorem softResetRule_store (pick : Nat → Nat) (body : List Byte) (s : State) :
    (softResetRule pick body s).state.store = s.store.revert := by
  have offers (u : State) : (u.resetOffers pick).store = u.store := by simp [State.resetOffers]
  unfold softResetRule State.resetUnits Answer.done
  simp [offers]

theorem Settings.default_legal : Settings.default.Legal where
  base := by decide
  factor := by decide
  guard := by decide
  chan c := by cases c <;> decide
  range c := by cases c <;> decide
  codes c := by cases c <;> decide
  weighting := by
    have flat : WeightingSet.flat.legal := by
      unfold WeightingSet.legal WeightingSet.flat Coeffs.legal Coeffs.flat inSigned32; decide
    exact ⟨flat, flat, flat⟩
  schedule i := by
    simp only [Settings.default, Fin.getElem_fin, Vector.getElem_replicate]
    exact ⟨by decide, by decide, by decide, trivial, trivial, trivial⟩

/-! ### What keeps the store keeps its properties -/

/-- Both copies of a store are legal. -/
def Store.Legal (st : Store) : Prop := st.staged.Legal ∧ st.active.Legal

namespace Store.Legal

variable {st : Store} (legal : st.Legal)
include legal

theorem applied : st.applied.Legal := ⟨legal.1, legal.1⟩

theorem atBoundary : st.atBoundary.Legal := by
  unfold Store.atBoundary
  split
  · exact legal.applied
  · exact legal

theorem withStagedK (c : Chan) {k : Int} (low : -10000 ≤ k) (high : k ≤ 15000) : (st.withStagedK c k).Legal :=
  ⟨legal.1.writeChannel (x := (c, _)) (ChannelSettings.valid_withK (legal.1.chan c) low high), legal.2⟩

theorem revert : st.revert.Legal := ⟨legal.2, legal.2⟩

end Store.Legal

/-! ### What every command does to the store -/

/-- A property of the store is kept by the steps of a block end if the staged K of a check's result and a commit at the
boundary keep it. -/
theorem store_blockKept (Q : Store → Prop)
    (stagedK : ∀ st c k, -10000 ≤ k → k ≤ 15000 → Q st → Q (st.withStagedK c k))
    (boundary : ∀ st, Q st → Q st.atBoundary) : BlockKept fun s => Q s.store where
  engine s hs := by
    obtain e | ⟨c, k, -, low, high, e⟩ := engineStep_store s <;> rw [e]
    exacts [hs, stagedK _ c k low high hs]
  boundary s hs := by
    obtain e | e := boundaryStep_store s Config.pick <;> rw [e]
    exacts [hs, boundary _ hs]

/-- Settles O6: the edits write what their readers accept, a check's result a K of the range, and every other operation
copies one copy to the other. -/
theorem settingsHeldByStep : Obligations.SettingsHeldByStep := by
  intro s t held h
  have block : BlockKept fun u => u.store.Legal :=
    store_blockKept Store.Legal (fun _ c _ low high legal => legal.withStagedK c low high) fun _ legal => legal.atBoundary
  refine step_keeps (P := fun u => u.store.Legal) (fun _ _ hs => hs) (fun i => ?_) held h
  exact {
    powerOn := fun _ _ _ _ _ => ⟨Settings.default_legal, Settings.default_legal⟩
    finish := block.finish
    upTo := block.upTo
    stall := fun s _ _ legal => by rw [enterStalled_store]; exact legal
    rule := RuleKept.send
      { softReset := fun s body legal => by rw [softResetRule_store]; exact legal.revert
        edit := fun s x legalEdit _ legal => ⟨legalEdit legal.1, legal.2⟩
        commitNow := fun s _ _ legal => by rw [commitAtOnce_store]; exact legal.applied
        discard := fun s legal => legal.revert
        abortCheck := fun s legal => by rw [cutCheck_store]; exact legal }
      fun s _ _ _ legal => by rw [reply_store]; exact legal }

/-- With no commit pending nothing but COMMIT and power-on changes the active copy. -/
def ActiveStays (active : Settings) (st : Store) : Prop := st.active = active ∧ st.commitPending = false

theorem activeStays_blockKept (active : Settings) : BlockKept fun s => ActiveStays active s.store :=
  store_blockKept _ (fun _ _ _ _ _ stays => stays) fun st stays => by
    rw [Store.atBoundary, stays.2]; exact stays

/-- A block end is no moment of a commit: none is due, or no commit is pending. -/
def NoCommitDue (active : Settings) (s : State) : Prop :=
  s.store.active = active ∧ (s.blockWork = none ∨ s.store.commitPending = false)

namespace NoCommitDue

variable {active : Settings} {s : State} (h : NoCommitDue active s)
include h

theorem finish : NoCommitDue active (s.finishBlock Config.pick) := by
  obtain ⟨same, none | free⟩ := h
  · rw [finishBlock_of_none _ s none]; exact ⟨same, .inl none⟩
  · obtain ⟨same, free⟩ := (activeStays_blockKept active).finish s ⟨same, free⟩
    exact ⟨same, .inr free⟩

theorem upTo (t : Task) (falls : State → Bool) : NoCommitDue active (s.takeUpTo Config.pick t falls) := by
  obtain ⟨same, none | free⟩ := h
  · unfold State.takeUpTo; rw [none]; exact ⟨same, .inl none⟩
  · obtain ⟨same, free⟩ := (activeStays_blockKept active).upTo s t falls ⟨same, free⟩
    exact ⟨same, .inr free⟩

end NoCommitDue

/-- Settles O15: with no commit due at a block end, every command but COMMIT and power-on keeps the active copy. -/
theorem onlyCommitChangesActive : Obligations.OnlyCommitChangesActive := by
  intro i s t h changed
  by_contra other
  simp only [not_or] at other
  obtain ⟨notDue, noCommit, noPowerOn⟩ := other
  have start : NoCommitDue s.store.active s := by
    refine ⟨rfl, ?_⟩
    by_contra due
    simp only [not_or] at due
    exact notDue ⟨Option.isSome_iff_ne_none.2 due.1, by simpa using due.2⟩
  have kept : KeptBy (NoCommitDue s.store.active) (fun u => u.store.active = s.store.active) i := {
    same := fun _ hu => hu.1
    powerOn := fun rate1 rate0 _ hi => absurd ⟨rate1, rate0, hi⟩ noPowerOn
    finish := fun _ hu => hu.finish
    upTo := fun _ t falls hu => hu.upTo t falls
    frame := fun u gap x1 x2 x3 x4 act _ _ hu => by rw [handleFrame_frame, resumeInput_frame]; exact hu.1
    stall := fun u _ _ hu => by
      have none : (u.enterStalled Config.pick).blockWork = u.blockWork := by rw [enterStalled_frame]
      rw [NoCommitDue, enterStalled_store, none]; exact hu
    rule := RuleKept.send
      { softReset := fun u body hu => by
          have none : (softResetRule Config.pick body u).state.blockWork = u.blockWork := by rw [softResetRule_frame]
          rw [NoCommitDue, softResetRule_store, none]
          exact ⟨hu.1, .inr rfl⟩
        commit := fun _ hi => absurd hi noCommit
        commitNow := fun _ hi => absurd hi noCommit
        discard := fun u hu => ⟨hu.1, .inr rfl⟩
        abortCheck := fun u hu => by rw [NoCommitDue, cutCheck_store, cutCheck_blockWork]; exact hu }
      fun u _ _ _ hu => by rw [NoCommitDue, reply_store, reply_blockWork]; exact hu }
  exact changed (kept.exec h start)

end Sys2Proof.Machine
end

section
/-! PROOFS. The capture controller's regions, the moves that its operations make of them, and the principle by which what
offers, records and these moves keep, a block end keeps. -/

namespace Sys2Proof.Machine

/-! ### Looking regions up -/

namespace Capture

variable {k : Capture} {c : Chan} {i : Fin 16} {d : Descriptor}

theorem find_some {p : Role → Bool} (h : k.find p = some i) : p k.regions[i] = true := by
  simpa using List.find?_some h

theorem find_none {p : Role → Bool} (h : k.find p = none) (i : Fin 16) : p k.regions[i] = false := by
  have := List.find?_eq_none.1 h i (List.mem_finRange i)
  simpa using this

theorem ringRegion_some (h : k.ringRegion c = some i) : k.regions[i] = .ring c := by
  have found := find_some h
  unfold Role.isRingOf at found
  split at found
  next c' e => rw [e, of_decide_eq_true found]
  next => cases found

theorem recording_some {tail : Option Nat} (h : k.recording c = some (i, d, tail)) :
    k.regions[i] = .recording d tail ∧ d.chan = c := by
  unfold Capture.recording at h
  split at h
  next j found =>
    split at h
    next d' tail' e =>
      cases h
      have of := find_some found
      rw [e] at of
      exact ⟨e, of_decide_eq_true of⟩
    next => cases h
  next => cases h

theorem recording_none (h : k.recording c = none) (j : Fin 16) : Role.isRecordingOf c k.regions[j] = false := by
  unfold Capture.recording at h
  split at h
  next i found =>
    have of := find_some found
    split at h
    next => cases h
    next other =>
      unfold Role.isRecordingOf at of
      split at of
      next d tail e => exact absurd e (other d tail)
      next => cases of
  next none => exact find_none none j

theorem find_free (h : k.find Role.isFree = some i) : k.regions[i] = .free := by
  have found := find_some h
  unfold Role.isFree at found
  split at found
  next e => exact e
  next => cases found

theorem oldestStored_some (h : k.oldestStored = some (i, d)) : k.regions[i] = .stored d := by
  suffices all : ∀ x : Fin 16 × Descriptor, k.oldestStored = some x → k.regions[x.1] = .stored x.2 from all _ h
  unfold Capture.oldestStored
  refine foldl_keeps (fun best : Option (Fin 16 × Descriptor) => ∀ x, best = some x → k.regions[x.1] = .stored x.2) _ _ ?_ none (fun _ hx => nomatch hx)
  intro j _ best ih
  split
  next d' e =>
    have next (x : Fin 16 × Descriptor) (hx : best = some x ∨ x = (j, d')) : k.regions[x.1] = .stored x.2 := by
      obtain old | rfl := hx
      · exact ih x old
      · exact e
    intro x hx
    refine next x ?_
    repeat' split at hx
    all_goals first | exact .inl hx | exact .inr (Option.some.inj hx).symm
  next => exact ih

theorem release_regions (j : Fin 16) :
    (k.release i d).regions[j] = if j = i then .free else (k.regions[j]).younger d.age := by
  unfold Capture.release
  simp only [Fin.getElem_fin, Vector.getElem_map, Vector.getElem_set]
  by_cases same : j = i
  · subst same; simp [Role.younger]
  · rw [if_neg (fun e => same (Fin.ext e.symm)), if_neg same]

end Capture

@[simp] theorem Role.isRecordingOf_younger (c : Chan) (age : Nat) (r : Role) :
    Role.isRecordingOf c (r.younger age) = Role.isRecordingOf c r := by
  cases r with
  | recording d tail => simp only [Role.younger, Role.isRecordingOf]; split <;> rfl
  | _ => rfl

@[simp] theorem Role.isRingOf_younger (c : Chan) (age : Nat) (r : Role) :
    Role.isRingOf c (r.younger age) = Role.isRingOf c r := by
  cases r <;> rfl

/-! ### The moves of the capture controller -/

/-- What the operations of the capture controller make of its state, besides the memory port's and the link commands'. -/
inductive Capture.Move : Capture → Capture → Prop
  /-- A recording stays one, of its channel and with its first position (R128, R130, R134). -/
  | renew {k : Capture} {i : Fin 16} {d d' : Descriptor} {tail tail' : Option Nat} (was : k.regions[i] = .recording d tail)
    (chan : d'.chan = d.chan) (start : d'.start = d.start) :
    Move k { k with regions := k.regions.set i (.recording d' tail') }
  /-- A recording becomes STORED (R135). -/
  | store {k : Capture} {i : Fin 16} {d d' : Descriptor} {tail : Option Nat} (was : k.regions[i] = .recording d tail)
    (chan : d'.chan = d.chan) (start : d'.start = d.start) : Move k { k with regions := k.regions.set i (.stored d') }
  /-- A ring becomes the recording of its channel, which has none, and a FREE region its ring (R131). -/
  | swap {k : Capture} {c : Chan} {ring i : Fin 16} {d : Descriptor} (was : k.regions[ring] = .ring c)
    (none : ∀ j : Fin 16, Role.isRecordingOf c k.regions[j] = false) (free : k.regions[i] = .free) (chan : d.chan = c)
    (start : d.start < 10000) : Move k (k.swap c ring i d)
  /-- A STORED capture becomes FREE (R132). -/
  | release {k : Capture} {i : Fin 16} {d : Descriptor} (was : k.regions[i] = .stored d) : Move k (k.release i d)
  /-- The marks of the close blocks (R134). -/
  | mark {k : Capture} (marks : Quad Bool) : Move k { k with closeBlock := marks }
  /-- An accepted block enters the write buffer, at a ring's head or a position of a region (R128, R137). -/
  | push {k : Capture} {e : BufferEntry} (room : k.accepts = true)
    (inside : e.position < 10000 ∨ ∃ c, e.position = (k.rings.get c).head) : Move k (k.push e)
  /-- A ring goes on, or restarts (R129). -/
  | ring {k : Capture} {c : Chan} {r : Ring} (inside : r.head < 10000 ∨ r.head = (k.rings.get c).head) :
    Move k { k with rings := k.rings.set c r }
  /-- Every ring restarts, and entries leave the write buffer (R146). -/
  | restart {k : Capture} (keep : BufferEntry → Bool) : Move k { k.emptyRings with buffer := k.buffer.filter keep }

theorem circular_lt (p n : Nat) : circular p n < 10000 := Nat.mod_lt _ (by decide)

@[simp] theorem Capture.recorded_chan (k : Capture) (d : Descriptor) : (k.recorded d).chan = d.chan := by
  unfold Capture.recorded; repeat' split
  all_goals rfl

@[simp] theorem Capture.recorded_start (k : Capture) (d : Descriptor) : (k.recorded d).start = d.start := by
  unfold Capture.recorded; repeat' split
  all_goals rfl

/-- The arbiter moves an entry from the buffer into the port, or nothing. -/
theorem Capture.arbitrate_eq (k : Capture) :
    k.arbitrate = { k with buffer := k.arbitrate.buffer, inFlight := k.arbitrate.inFlight } := by
  unfold Capture.arbitrate
  repeat' split
  all_goals rfl

@[simp] theorem Capture.push_regions (k : Capture) (e : BufferEntry) : (k.push e).regions = k.regions := by
  rw [Capture.push, Capture.arbitrate_eq]

@[simp] theorem Capture.push_rings (k : Capture) (e : BufferEntry) : (k.push e).rings = k.rings := by
  rw [Capture.push, Capture.arbitrate_eq]

/-- What keeps a property of the stores, the report queue and the capture controller: it depends on these alone, and the
offer of an event, the entry of a record, the live step and the capture controller's moves keep it. -/
structure QueueKept (P : State → Prop) : Prop where
  quiet : ∀ s u : State, u.fifo = s.fifo → u.capture = s.capture → u.report = s.report → u.link = s.link → P s → P u
  offer : ∀ s c stamp body, P s → P (s.offer c stamp body)
  putRecord : ∀ s stamp r, P s → P (s.putRecord stamp r)
  move : ∀ s k, Capture.Move s.capture k → P s → P { s with capture := k }

namespace QueueKept

variable {P : State → Prop} (k : QueueKept P)
include k

theorem mark (s : State) (marks : Quad Bool) (hs : P s) :
    P { s with capture := { s.capture with closeBlock := marks } } := k.move s _ (.mark marks) hs

theorem storeCapture {s : State} {i : Fin 16} {d d' : Descriptor} {tail : Option Nat} (stamp : Stamp)
    (was : s.capture.regions[i] = .recording d tail) (chan : d'.chan = d.chan) (start : d'.start = d.start) (hs : P s) :
    P (s.storeCapture i d' stamp) :=
  k.offer _ _ _ _ (k.move s _ (.store was chan start) hs)

theorem startCapture {s : State} {c : Chan} {i : Fin 16} (episode : Nat) (start : Stamp)
    (free : s.capture.regions[i] = .free) (none : ∀ j : Fin 16, Role.isRecordingOf c s.capture.regions[j] = false)
    (hs : P s) : P (s.startCapture c episode start i).1 := by
  unfold State.startCapture
  split
  next => exact hs
  next ring found =>
    exact k.move s _ (.swap (Capture.ringRegion_some found) none free rfl (circular_lt ..)) hs

theorem openCapture (s : State) (c : Chan) (episode : Nat) (start : Stamp) (hs : P s) :
    P (s.openCapture c episode start).1 := by
  unfold State.openCapture
  split
  next i d tail found => exact k.move s _ (.renew (Capture.recording_some found).1 rfl rfl) hs
  next none =>
    split
    · exact k.offer _ _ _ _ hs
    · split
      next i free => exact k.startCapture episode start (Capture.find_free free) (Capture.recording_none none) hs
      next =>
        split
        · exact k.offer _ _ _ _ hs
        · split
          next i d found =>
            have released := k.move s _ (.release (Capture.oldestStored_some found)) hs
            refine k.startCapture episode start ?_ ?_ (k.offer _ _ _ _ released)
            · rw [offer_capture]; exact (Capture.release_regions i).trans (if_pos rfl)
            · intro j
              rw [offer_capture]
              refine (congrArg _ (Capture.release_regions j)).trans ?_
              split
              · rfl
              · rw [Role.isRecordingOf_younger]; exact Capture.recording_none none j
          next => exact hs

theorem closeCapture (s : State) (c : Chan) (id : Option Nat) (reason : CloseReason) (stamp : Stamp) (hs : P s) :
    P (s.closeCapture c id reason stamp) := by
  unfold State.closeCapture
  split
  next i d found =>
    have was := (Capture.recording_some found).1
    split
    · exact hs
    · split
      · exact k.storeCapture stamp was rfl rfl hs
      · split
        · exact k.mark _ _ (k.move s _ (.renew was rfl rfl) hs)
        · split
          · exact k.storeCapture stamp was rfl rfl hs
          · exact k.move s _ (.renew was rfl rfl) hs
  next => exact hs

theorem setMonitor (s : State) (c : Chan) (m : MonitorChan) (hs : P s) : P (s.setMonitor c m) :=
  k.quiet s _ rfl rfl rfl rfl hs

theorem closeEpisode (s : State) (c : Chan) (reason : CloseReason) (stamp : Stamp) (hs : P s) :
    P (s.closeEpisode c reason stamp) := by
  unfold State.closeEpisode
  split
  · exact hs
  · exact k.setMonitor _ _ _ (k.closeCapture _ _ _ _ _ (k.offer _ _ _ _ hs))

theorem openEpisode (s : State) (c : Chan) (limit : Int) (hs : P s) : P (s.openEpisode c limit) :=
  k.setMonitor _ _ _ (k.openCapture _ _ _ _ (k.offer _ _ _ _ (k.quiet s _ rfl rfl rfl rfl hs)))

theorem episodeStep (s : State) (c : Chan) (hs : P s) : P (s.episodeStep c) := by
  unfold State.episodeStep
  dsimp only
  split
  · split
    · exact k.closeEpisode _ _ _ _ (k.setMonitor _ _ _ hs)
    · exact k.setMonitor _ _ _ hs
  · split
    · split
      · exact k.openEpisode _ _ _ hs
      · exact hs
    · exact hs

theorem budgetStep (s : State) (c : Chan) (hs : P s) : P (s.budgetStep c) := by
  have warn (t : BudgetThreshold) (sum : Nat) (u : State) (hu : P u) : P (u.warnStep c t sum) := by
    unfold State.warnStep
    split
    · exact k.offer _ _ _ _ (k.setMonitor _ _ _ hu)
    · exact hu
  have spend (t : BudgetThreshold) (sum : Nat) (u : State) (hu : P u) : P (u.spendStep c t sum) := by
    unfold State.spendStep
    split
    · exact k.offer _ _ _ _ (k.setMonitor _ _ _ hu)
    · exact hu
  unfold State.budgetStep
  split
  · exact hs
  · split
    · exact spend _ _ _ (warn _ _ _ hs)
    · exact hs

theorem peakStep (s : State) (c : Chan) (hs : P s) : P (s.peakStep c) := by
  unfold State.peakStep
  dsimp only
  split
  · exact k.setMonitor _ _ _ hs
  · split
    · split
      · exact k.offer _ _ _ _ (k.setMonitor _ _ _ hs)
      · exact k.setMonitor _ _ _ hs
    · exact k.setMonitor _ _ _ hs

theorem recordBlock {s : State} {c : Chan} {i : Fin 16} {d : Descriptor} {tail : Option Nat} (bytes : List Byte)
    (was : s.capture.regions[i] = .recording d tail) (hs : P s) : P (s.recordBlock c i d tail bytes) := by
  have pushed : P { s with
      capture :=
        { (if s.capture.accepts then s.capture.push ⟨i, circular d.start d.length, bytes⟩ else s.capture) with
          closeBlock := s.capture.closeBlock.set c false } } := by
    split
    next room =>
      exact k.mark _ _ (k.move s _ (.push (e := ⟨i, circular d.start d.length, bytes⟩) room (.inl (circular_lt ..))) hs)
    next => exact k.move s _ (.mark _) hs
  have region : ({ (if s.capture.accepts then s.capture.push ⟨i, circular d.start d.length, bytes⟩ else s.capture) with
      closeBlock := s.capture.closeBlock.set c false } : Capture).regions[i] = .recording d tail := by
    split
    · exact (congrArg (·[i]) (Capture.push_regions ..)).trans was
    · exact was
  unfold State.recordBlock
  dsimp only
  split
  · exact k.storeCapture _ region (by simp) (by simp) pushed
  · exact k.storeCapture _ region (by simp) (by simp) pushed
  · exact k.move _ _ (.renew region (by simp) (by simp)) pushed

theorem ringBlock (s : State) (c : Chan) (i : Fin 16) (bytes : List Byte) (hs : P s) : P (s.ringBlock c i bytes) := by
  unfold State.ringBlock
  dsimp only
  split
  next room =>
    have pushed := k.move s _ (.push (e := ⟨i, (s.capture.rings.get c).head, bytes⟩) room (.inr ⟨c, rfl⟩)) hs
    have gone := k.move _ _ (.ring (c := c) (r := (s.capture.rings.get c).accepted) (.inl (circular_lt ..))) pushed
    rwa [Capture.push_rings] at gone
  next =>
    split
    · exact k.move s _ (.ring (.inr rfl)) hs
    · exact hs

theorem captureStep (s : State) (c : Chan) (hs : P s) : P (s.captureStep c) := by
  unfold State.captureStep
  split
  next i d tail found => exact k.recordBlock _ (Capture.recording_some found).1 hs
  next =>
    split
    · exact k.ringBlock _ _ _ _ hs
    · exact hs

theorem endCheck (s : State) (e : Ending) (counted : Nat) (stamp : Stamp) (hs : P s) : P (s.endCheck e counted stamp) := by
  unfold State.endCheck
  split
  · exact hs
  · exact hs
  · refine k.offer _ _ _ _ (k.quiet s _ ?_ ?_ ?_ ?_ hs) <;> simp

theorem cutCheck (s : State) (result : CheckEnd) (stamp : Stamp) (hs : P s) : P (s.cutCheck result stamp) :=
  k.endCheck _ _ _ _ hs

theorem engineStep (s : State) (hs : P s) : P s.engineStep := by
  unfold State.engineStep
  split
  · exact k.cutCheck _ _ _ hs
  · exact k.quiet s _ rfl rfl rfl rfl hs
  · exact k.quiet s _ rfl rfl rfl rfl hs
  · exact k.quiet s _ rfl rfl rfl rfl hs
  · exact k.endCheck _ _ _ _ hs
  · exact hs

theorem applyCommit (s : State) (atBoundary : Bool) (stamp : Stamp) (hs : P s) : P (s.applyCommit atBoundary stamp) := by
  have taken : P ((((State.offer { s with store := { s.store with active := s.store.staged, commitPending := false } } none
      stamp (.configApplied atBoundary)).commitRanges s.store.active s.store.staged).commitUnits s.store.active
      s.store.staged).commitGuard s.store.active s.store.staged) := by
    refine k.quiet _ _ ?_ ?_ ?_ ?_ (k.offer _ none stamp (.configApplied atBoundary) (k.quiet s
      { s with store := { s.store with active := s.store.staged, commitPending := false } } rfl rfl rfl rfl hs)) <;> simp
  unfold State.applyCommit State.commitCheck
  dsimp only
  split
  · split
    · exact k.cutCheck _ _ _ taken
    · exact taken
  · exact taken

theorem commitAtOnce (s : State) (stamp : Stamp) (hs : P s) : P (s.commitAtOnce stamp) :=
  k.quiet (s.applyCommit false stamp) _ rfl rfl rfl rfl (k.applyCommit s false stamp hs)

theorem closeInterval (s : State) (iv : Interval) (cause : CloseCause) (hs : P s) : P (s.closeInterval iv cause) := by
  refine k.quiet (Chan.all.foldl (State.recordChannel iv cause) s) _ rfl rfl rfl rfl
    (foldl_keeps P _ _ (fun c _ u hu => ?_) s hs)
  unfold State.recordChannel
  split
  · exact hu
  · split
    · exact hu
    · exact k.putRecord _ _ _ hu

theorem closeEach (s : State) (pick : Nat → Nat) (l : List Chan) (reason : CloseReason) (stamp : State → Stamp)
    (hs : P s) : P (s.eachFreely pick l fun c u => u.closeEpisode c reason (stamp u)) :=
  eachFreely_keeps P pick l _ (fun u _ hu => k.quiet u _ rfl rfl rfl rfl hu)
    (fun c _ u hu => k.closeEpisode u c reason _ hu) s hs

theorem openInterval (pick : Nat → Nat) (s : State) (clamps : Quad Nat) (applied : Bool) (hs : P s) :
    P (s.openInterval pick clamps applied) :=
  k.closeEach _ pick _ _ _ (k.quiet s _ rfl rfl rfl rfl hs)

theorem enterHeld (pick : Nat → Nat) (s : State) (closed : Option Nat) (hs : P s) : P (s.enterHeld pick closed) := by
  have closedAll (u : State) (hu : P u) := k.closeEach u pick u.openEpisodes .limitRemoved (·.handed.report.ended) hu
  unfold State.enterHeld
  dsimp only
  split
  · exact k.commitAtOnce _ _ (closedAll _ (k.offer _ _ _ _ (k.quiet s _ rfl rfl rfl rfl hs)))
  · exact closedAll _ (k.offer _ _ _ _ (k.quiet s _ rfl rfl rfl rfl hs))

theorem enterMeasuring (pick : Nat → Nat) (s : State) (hs : P s) : P (s.enterMeasuring pick) := by
  unfold State.enterMeasuring
  dsimp only
  split
  · exact k.openInterval _ _ _ _ (k.applyCommit _ _ _ hs)
  · exact k.openInterval _ _ _ _ hs

theorem boundaryStep (pick : Nat → Nat) (s : State) (hs : P s) : P (s.boundaryStep pick) := by
  unfold State.boundaryStep State.openingBoundary
  dsimp only
  split
  · split
    · split
      · exact k.enterHeld _ _ _ (k.closeInterval _ _ _ hs)
      · exact k.enterMeasuring _ _ (k.closeInterval _ _ _ hs)
    · exact hs
  · split
    · split
      · split
        · exact k.enterHeld _ _ _ (k.quiet s _ rfl rfl rfl rfl hs)
        · exact k.enterHeld _ _ _ hs
      · exact k.enterMeasuring _ _ hs
    · split
      · exact k.quiet s _ rfl rfl rfl rfl hs
      · exact hs

/-- What the moves and a live report keep, a block end keeps. -/
theorem block (live : ∀ s, P s → P s.liveStep) : BlockKept P where
  choice s _ hs := k.quiet s _ rfl rfl rfl rfl hs
  work s _ hs := k.quiet s _ rfl rfl rfl rfl hs
  range s _ hs := k.quiet s _ rfl rfl rfl rfl hs
  weigh s c hs := k.quiet s _ rfl rfl rfl rfl hs
  clock s hs := k.quiet s _ (by simp) (by simp) (by simp) (by simp) hs
  classify s hs := k.quiet s _ rfl rfl rfl rfl hs
  engine := k.engineStep
  accumulate s hs := k.quiet s _ (by simp) (by simp) (by simp) (by simp) hs
  peak := k.peakStep
  budget := k.budgetStep
  episode := k.episodeStep
  capture := k.captureStep
  boundary := k.boundaryStep Config.pick
  alert s hs := k.quiet s _ rfl rfl rfl rfl hs
  live := live
  ended s hs := k.quiet { s with capture := { s.capture with closeBlock := .same false } } _ rfl rfl rfl rfl
    (k.mark s _ hs)

theorem task (t : Task) (other : t ≠ .live) (s : State) (hs : P s) : P (runTask Config.pick t s) := by
  cases t with
  | live => exact absurd rfl other
  | range c | weigh c | alert => exact k.quiet s _ rfl rfl rfl rfl hs
  | clock | classify | accumulate =>
    exact k.quiet s _ (by simp [runTask]) (by simp [runTask]) (by simp [runTask]) (by simp [runTask]) hs
  | engine => exact k.engineStep s hs
  | peak c => exact k.peakStep s c hs
  | budget c => exact k.budgetStep s c hs
  | episode c => exact k.episodeStep s c hs
  | capture c => exact k.captureStep s c hs
  | boundary => exact k.boundaryStep Config.pick s hs

theorem resumeInput (s : State) (gap : Nat) (hs : P s) : P (s.resumeInput gap) := by
  unfold State.resumeInput
  split
  · exact k.offer _ _ _ _ (k.quiet s _ rfl rfl rfl rfl hs)
  · exact hs

theorem sampleFrame (s : State) (gap : Nat) (x1 x2 x3 x4 : Sample) (act : Bool) (hs : P s) :
    P ((s.resumeInput gap).handleFrame x1 x2 x3 x4 act) := by
  refine k.quiet _ _ ?_ ?_ ?_ ?_ (k.resumeInput s gap hs) <;> rw [handleFrame_frame]

theorem enterStalled (pick : Nat → Nat) (s : State) (hs : P s) : P (s.enterStalled pick) := by
  refine eachFreely_keeps P pick _ _ (fun u _ hu => k.quiet u _ rfl rfl rfl rfl hu) (fun x _ u hu => ?_) _ ?_
  · cases x with
    | closeEpisode c => exact k.closeEpisode _ _ _ _ hu
    | endCheck => exact k.cutCheck _ _ _ hu
  · refine k.quiet _ _ ?_ ?_ ?_ ?_ (k.offer _ none s.clock.now (.inputStalled s.port.frameCounter)
      (k.quiet s { s with port := { s.port with stalled := true } } rfl rfl rfl rfl hs)) <;> rw [markGap_frame]

theorem beginCheck (s : State) (p : CheckParams) (hs : P s) : P (s.beginCheck p) := by
  unfold State.beginCheck
  dsimp only
  refine k.quiet (State.closeEpisode _ p.chan .check s.clock.now) _ rfl rfl rfl rfl (k.closeEpisode _ _ _ _ ?_)
  exact k.quiet s _ rfl rfl rfl rfl hs

theorem endTail (s : State) (c : Chan) (hs : P s) : P (s.endTail c) := by
  unfold State.endTail
  split
  next i d _ found => exact k.storeCapture _ (Capture.recording_some found).1 rfl rfl hs
  next => exact hs

theorem resetCapture (s : State) (hs : P s) : P s.resetCapture := by
  have ended := foldl_keeps P State.endTail Chan.all (fun c _ u hu => k.endTail u c hu) s hs
  unfold State.resetCapture
  generalize Chan.all.foldl State.endTail s = u at ended
  have restarted := k.move u _ (.restart fun e => !u.capture.addressedToRing e) ended
  exact k.mark _ _ restarted

theorem resetOffers (pick : Nat → Nat) (s : State) (hs : P s) : P (s.resetOffers pick) :=
  k.cutCheck _ _ _ (k.resetCapture _ (k.closeEach s pick _ .reset (·.clock.now) hs))

omit k in
theorem withoutChoosing (sending : ∀ s m, P s → P { s with report := { s.report with sending := m } })
    (f : State → State) (keeps : ∀ u, P u → P (f u)) (s : State) (hs : P s) : P (s.withoutChoosing f) :=
  sending (f s.engaged) s.report.sending (keeps _ (sending s _ hs))

theorem resetUnits (s : State) (hs : P s) : P s.resetUnits := k.quiet s _ rfl rfl rfl rfl hs

/-- A soft reset keeps what the moves keep, if what its report queue loses and the idle transmitter do not matter. -/
theorem softResetRule (clear : ∀ s, P s → P { s with report := s.report.softReset })
    (sending : ∀ s m, P s → P { s with report := { s.report with sending := m } }) (body : List Byte) (s : State)
    (hs : P s) : P (softResetRule Config.pick body s).state := by
  rw [softResetRule_state]
  exact k.resetUnits _ (withoutChoosing sending _ (k.resetOffers Config.pick) _ (clear s hs))

end QueueKept

end Sys2Proof.Machine
end

section
/-! PROOFS. The sizes of the queues and stores (R98, R137, R161, R163, R175, R176). -/

namespace Sys2Proof.Machine

/-- The stores within their sizes, with at most `n` replies waiting or reserved. -/
structure Sizes (n : Nat) (fifo : List IntervalRecord) (report : ReportQueue) (capture : Capture) (link : Link) : Prop where
  records : fifo.length ≤ 128
  events : report.events.length ≤ 32
  replies : report.replies.length + report.reserved ≤ n
  reserved : report.reserved = if capture.job.isSome then 1 else 0
  commands : link.queue.length ≤ 4
  buffer : capture.buffer.length ≤ 4

/-- A state whose stores are within their sizes, with at most `n` replies waiting or reserved. -/
abbrev Roomy (n : Nat) (s : State) : Prop := Sizes n s.fifo s.report s.capture s.link

theorem storesHeld_iff (s : State) : StoresHeld s ↔ Roomy 4 s :=
  ⟨fun h => ⟨h.records, h.events, h.replies, h.reserved, h.commands, h.buffer⟩,
    fun h => ⟨h.records, h.events, h.replies, h.reserved, h.commands, h.buffer⟩⟩

theorem transmit_reserved (s : State) : s.transmit.report.reserved = s.report.reserved := by rw [transmit_settings]

theorem arbitrate_buffer_length (k : Capture) : k.arbitrate.buffer.length ≤ k.buffer.length := by
  unfold Capture.arbitrate
  split
  · exact le_rfl
  · exact le_rfl
  · split
    next op rest chosen =>
      unfold Capture.choose at chosen
      repeat' split at chosen
      all_goals cases chosen
      all_goals simp [*]
    next => exact le_rfl

@[simp] theorem arbitrate_job (k : Capture) : k.arbitrate.job = k.job := by rw [Capture.arbitrate_eq]

@[simp] theorem push_job (k : Capture) (e : BufferEntry) : (k.push e).job = k.job := by
  rw [Capture.push, Capture.arbitrate_eq]

/-- The capture controller's moves leave the READ_CAPTURE in execution, and the write buffer within its size. -/
theorem Capture.Move.job_buffer {k k' : Capture} (move : Capture.Move k k') :
    k'.job = k.job ∧ (k.buffer.length ≤ 4 → k'.buffer.length ≤ 4) := by
  cases move with
  | push room _ =>
    refine ⟨push_job .., fun _ => (arbitrate_buffer_length _).trans ?_⟩
    have room : k.buffer.length < 4 := of_decide_eq_true (Bool.and_eq_true_iff.1 room).2
    simpa using room
  | restart keep => exact ⟨rfl, fun h => (List.length_filter_le ..).trans h⟩
  | _ => exact ⟨rfl, id⟩

namespace Roomy

variable {n : Nat} {s : State}

theorem quiet {u : State} (fifo : u.fifo = s.fifo) (capture : u.capture = s.capture) (report : u.report = s.report)
    (link : u.link = s.link) (h : Roomy n s) : Roomy n u :=
  ⟨fifo ▸ h.records, report ▸ h.events, report ▸ h.replies, by rw [report, capture]; exact h.reserved, link ▸ h.commands,
    capture ▸ h.buffer⟩

theorem transmit (h : Roomy n s) : Roomy n s.transmit := by
  obtain ⟨replies, events, records⟩ := transmit_lengths s
  exact ⟨records.trans h.records, events.trans h.events,
    by rw [transmit_reserved]; exact (Nat.add_le_add_right replies _).trans h.replies,
    by rw [transmit_reserved, transmit_capture]; exact h.reserved, by rw [transmit_link]; exact h.commands,
    by rw [transmit_capture]; exact h.buffer⟩

theorem offer (h : Roomy n s) (c : Option Chan) (stamp : Stamp) (body : EventBody) : Roomy n (s.offer c stamp body) := by
  unfold State.offer
  split
  next =>
    refine transmit ⟨h.records, enqueue_length _ _ h.events, ?_, ?_, h.commands, h.buffer⟩
    · unfold ReportQueue.enqueue; split <;> exact h.replies
    · unfold ReportQueue.enqueue; split <;> exact h.reserved
  next => exact h

theorem putRecord (h : Roomy n s) (stamp : Stamp) (r : IntervalRecord) : Roomy n (s.putRecord stamp r) := by
  have append (u : State) (hu : Roomy n u) (short : u.fifo.length < 128) :
      Roomy n (State.transmit { u with fifo := u.fifo ++ [r] }) :=
    transmit ⟨by simpa using short, hu.events, hu.replies, hu.reserved, hu.commands, hu.buffer⟩
  unfold State.putRecord
  dsimp only
  split
  next oldest rest full =>
    have records := h.records
    rw [full, List.length_cons] at records
    split
    next =>
      have dropped : Roomy n { s with fifo := rest, recordsLost := bump 65535 s.recordsLost } :=
        ⟨by exact (Nat.le_succ _).trans records, h.events, h.replies, h.reserved, h.commands, h.buffer⟩
      refine append _ (dropped.offer ..) ?_
      unfold State.offer
      split
      · exact (transmit_lengths _).2.2.trans_lt records
      · exact records
    next room => exact append s h (by simpa [Config.fifoSize] using room)
  next empty => exact append s h (by simp [empty])

theorem live (h : Roomy n s) : Roomy n s.liveStep := by
  unfold State.liveStep State.putLive State.takeImage
  dsimp only
  split
  · split
    · exact transmit ⟨h.records, h.events, h.replies, h.reserved, h.commands, h.buffer⟩
    · exact ⟨h.records, h.events, h.replies, h.reserved, h.commands, h.buffer⟩
  · exact ⟨h.records, h.events, h.replies, h.reserved, h.commands, h.buffer⟩

theorem move {k : Capture} (move : Capture.Move s.capture k) (h : Roomy n s) : Roomy n { s with capture := k } := by
  obtain ⟨job, buffer⟩ := move.job_buffer
  exact ⟨h.records, h.events, h.replies, by simpa only [job] using h.reserved, h.commands, buffer h.buffer⟩

theorem queueKept (n : Nat) : QueueKept (Roomy n) where
  quiet _ _ fifo capture report link := quiet fifo capture report link
  offer _ c stamp body h := h.offer c stamp body
  putRecord _ stamp r h := h.putRecord stamp r
  move _ _ move h := h.move move

theorem arbitrate (h : Roomy n s) : Roomy n s.arbitrate :=
  ⟨h.records, h.events, h.replies, by simpa [State.arbitrate] using h.reserved, h.commands,
    (arbitrate_buffer_length _).trans h.buffer⟩

theorem drain (h : Roomy n s) : Roomy n s.drain := by
  unfold State.drain
  split
  · have lent : Roomy n { s with capture := { s.capture with lend := .lent } } :=
      ⟨h.records, h.events, h.replies, h.reserved, h.commands, h.buffer⟩
    exact lent.offer ..
  · exact h

/-- A reply takes one place. -/
theorem reply (h : Roomy n s) (kind tag : Byte) (body : List Byte) : Roomy (n + 1) (s.reply kind tag body) := by
  refine transmit ⟨h.records, h.events, ?_, h.reserved, h.commands, h.buffer⟩
  have := h.replies
  simp only [List.length_append, List.length_singleton]
  omega

/-- A command begins with a place free. -/
theorem begins (can : s.canBegin = true) (h : Roomy 4 s) : Roomy 3 s ∧ s.report.replies.length ≤ 3 := by
  obtain ⟨idle, place⟩ := Bool.and_eq_true_iff.1 can
  have place : s.report.replies.length < 4 := of_decide_eq_true place
  have reserved : s.report.reserved = 0 := by rw [h.reserved, Option.isNone_iff_eq_none.1 idle]; rfl
  exact ⟨⟨h.records, h.events, by omega, h.reserved, h.commands, h.buffer⟩, by omega⟩

theorem completeWrite (h : Roomy n s) (e : BufferEntry) : Roomy n (s.completeWrite e) :=
  drain (arbitrate ⟨h.records, h.events, h.replies, h.reserved, h.commands, h.buffer⟩)

theorem completeRead (h : Roomy 4 s) (region : Fin 16) (position : Nat) : Roomy 4 (s.completeRead region position) := by
  have replies := h.replies
  have reserved := h.reserved
  unfold State.completeRead
  dsimp only
  split
  next => exact arbitrate ⟨h.records, h.events, h.replies, h.reserved, h.commands, h.buffer⟩
  next j job =>
    rw [job] at reserved
    split
    · exact arbitrate ⟨h.records, h.events, h.replies, reserved, h.commands, h.buffer⟩
    · have ended : Roomy 3 { s with
          capture := { s.capture with inFlight := none, job := none }, report := { s.report with reserved := 0 } } := by
        refine ⟨h.records, h.events, ?_, rfl, h.commands, h.buffer⟩
        simp only [Option.isSome_some, if_true] at reserved
        dsimp only
        omega
      exact (ended.reply ..).arbitrate

end Roomy

/-- The receiver puts at most one command into a command queue that has a place. -/
theorem Link.enqueue_queue_length {l : Link} (cmd : Command) (h : l.queue.length ≤ 4) : (l.enqueue cmd).queue.length ≤ 4 := by
  unfold Link.enqueue
  split
  · exact h
  next room =>
    simp only [Config.commandQueueSize, not_le] at room
    simpa using room

theorem Link.complete_queue_length {l : Link} (kind tag : Byte) (body : List Byte) (sum : Byte) (h : l.queue.length ≤ 4) :
    (l.complete kind tag body sum).queue.length ≤ 4 := by
  unfold Link.complete
  split
  · exact h
  · exact Link.enqueue_queue_length _ h

theorem Link.receive_queue_length {l : Link} (b : Byte) (h : l.queue.length ≤ 4) : (l.receive b).queue.length ≤ 4 := by
  unfold Link.receive
  dsimp only
  repeat' split
  all_goals first | exact Link.complete_queue_length _ _ _ _ h | exact h

theorem Link.taking_queue_length {l l' : Link} {cmd : Command} (taken : l.taking cmd = some l') (h : l.queue.length ≤ 4) :
    l'.queue.length ≤ 4 := by
  unfold Link.taking at taken
  split at taken
  next => cases taken; exact h
  next c rest queue =>
    rw [queue] at h
    split at taken
    · cases taken; exact (Nat.le_succ _).trans h
    · cases taken

/-- Settles O7: an entry is made where there is room, a reply takes the place that the beginning of its command has found
free or READ_CAPTURE has reserved, and everything else only takes out. -/
theorem storesHeldByStep : Obligations.StoresHeldByStep := by
  intro s t held h
  rw [storesHeld_iff] at held ⊢
  have kept := Roomy.queueKept 4
  refine step_keeps (P := Roomy 4) (fun _ _ hs => hs) (fun i => ?_) held h
  have rules : RuleKept (Roomy 3) i := {
    setCapture := fun _ _ _ _ hs => ⟨hs.records, hs.events, hs.replies, hs.reserved, hs.commands, hs.buffer⟩
    softReset := fun s body hs => (Roomy.queueKept 3).softResetRule
      (fun u hu => ⟨hu.records, Nat.zero_le _, hu.replies, hu.reserved, hu.commands, hu.buffer⟩)
      (fun u m hu => ⟨hu.records, hu.events, hu.replies, hu.reserved, hu.commands, hu.buffer⟩) body s hs
    commitNow := fun s _ _ => (Roomy.queueKept 3).commitAtOnce s _
    configure := fun s r _ hs => ⟨hs.records, hs.events, hs.replies, hs.reserved, hs.commands, hs.buffer⟩
    choose := fun s hs => hs.transmit
    readRecord := fun s hs =>
      ⟨(List.length_tail.trans_le (Nat.sub_le ..)).trans hs.records, hs.events, hs.replies, hs.reserved, hs.commands, hs.buffer⟩
    readEvent := fun s hs =>
      ⟨hs.records, (List.length_tail.trans_le (Nat.sub_le ..)).trans hs.events, hs.replies, hs.reserved, hs.commands, hs.buffer⟩
    release := fun s j d _ hs => ⟨hs.records, hs.events, hs.replies, hs.reserved, hs.commands, hs.buffer⟩
    reclaim := fun s _ hs => ⟨hs.records, hs.events, hs.replies, hs.reserved, hs.commands, hs.buffer⟩
    startCheck := fun s _ p _ _ _ => (Roomy.queueKept 3).beginCheck s p
    abortCheck := fun s => (Roomy.queueKept 3).cutCheck s _ _ }
  exact {
    powerOn := fun _ _ _ _ _ => 
      ⟨Nat.zero_le _, Nat.zero_le _, Nat.zero_le _, rfl, Nat.zero_le _, Nat.zero_le _⟩
    finish := (kept.block fun _ h => h.live).finish
    upTo := (kept.block fun _ h => h.live).upTo
    frame := fun s gap x1 x2 x3 x4 act _ _ => kept.sampleFrame s gap x1 x2 x3 x4 act
    stall := fun s _ _ => kept.enterStalled _ s
    receive := fun s b hs =>
      ⟨hs.records, hs.events, hs.replies, hs.reserved, Link.receive_queue_length b hs.commands, hs.buffer⟩
    complete := fun s kind tag body sum hs =>
      ⟨hs.records, hs.events, hs.replies, hs.reserved, Link.complete_queue_length kind tag body sum hs.commands,
        hs.buffer⟩
    expire := fun s hs =>
      ⟨hs.records, hs.events, hs.replies, hs.reserved, by unfold Link.expire; split <;> exact hs.commands, hs.buffer⟩
    wait := fun s cmd hs => by
      unfold State.wait
      split
      · exact hs
      · exact ⟨hs.records, hs.events, hs.replies, hs.reserved, Link.enqueue_queue_length cmd hs.commands, hs.buffer⟩
    taking := fun s cmd l taken hs =>
      ⟨hs.records, hs.events, hs.replies, hs.reserved, Link.taking_queue_length taken hs.commands, hs.buffer⟩
    reply := fun s kind tag body can hs => (hs.begins can).1.reply kind tag body
    rule := fun x hx s length can hs => (rules.state hx length s (hs.begins can).1).reply ..
    lend := fun s tag can _ hs => by
      have free := (hs.begins can).1
      have lending : Roomy 3 { s with capture := { s.capture with lend := .lending } } :=
        ⟨free.records, free.events, free.replies, free.reserved, free.commands, free.buffer⟩
      exact (lending.reply ..).drain
    read := fun s tag body j can _ hs =>
      Roomy.arbitrate ⟨hs.records, hs.events, Nat.succ_le_succ (hs.begins can).2, rfl, hs.commands, hs.buffer⟩
    transmit := fun s hs => Roomy.transmit ⟨hs.records, hs.events, hs.replies, hs.reserved, hs.commands, hs.buffer⟩
    writeDone := fun s e _ _ hs => hs.completeWrite e
    readDone := fun s region position _ hs => hs.completeRead region position }

end Sys2Proof.Machine
end

section
/-! PROOFS. Site time (chapter 4, section 4.1): the calendar of R57 and R58, the advance of R56, and the blocks of an interval
from its opening (R85). -/

namespace Sys2Proof.Machine

/-! ### Valid readings -/

/-- A reading's date and time lie in their ranges (R57, R61). -/
structure Stamp.Proper (t : Stamp) : Prop where
  yearLow : 2000 ≤ t.year
  yearHigh : t.year ≤ 2099
  monthLow : 1 ≤ t.month
  monthHigh : t.month ≤ 12
  dayLow : 1 ≤ t.day
  dayHigh : t.day ≤ daysInMonth t.year t.month
  second : t.second ≤ 86399
  block : t.block ≤ 999

theorem Stamp.valid_iff (t : Stamp) : t.valid = true ↔ t.Proper := by
  simp only [Stamp.valid, Bool.and_eq_true, decide_eq_true_eq]
  exact ⟨fun ⟨⟨⟨⟨⟨⟨⟨a, b⟩, c⟩, d⟩, e⟩, f⟩, g⟩, h⟩ => ⟨a, b, c, d, e, f, g, h⟩,
    fun ⟨a, b, c, d, e, f, g, h⟩ => ⟨⟨⟨⟨⟨⟨⟨a, b⟩, c⟩, d⟩, e⟩, f⟩, g⟩, h⟩⟩

theorem isLeap_iff (year : Nat) : isLeap year = true ↔ year % 4 = 0 := beq_iff_eq

theorem daysInMonth_pos (year month : Nat) : 1 ≤ daysInMonth year month := by
  unfold daysInMonth; repeat' split
  all_goals decide

theorem daysInMonth_december (year : Nat) : daysInMonth year 12 = 31 := rfl

theorem daysInMonth_eq_table (year month : Nat) (low : 1 ≤ month) (high : month ≤ 12) :
    daysInMonth year month =
      [31, if year % 4 = 0 then 29 else 28, 31, 30, 31, 30, 31, 31, 30, 31, 30, 31].getD (month - 1) 0 := by
  interval_cases month <;> simp [daysInMonth, isLeap_iff]

/-! ### The next day (R57, R58) -/

theorem nextDay_of_within_month {t : Stamp} (h : t.day < daysInMonth t.year t.month) :
    nextDay t = { t with day := t.day + 1 } := if_pos h

theorem nextDay_of_last_day {t : Stamp} (last : t.day = daysInMonth t.year t.month) (h : t.month < 12) :
    nextDay t = { t with month := t.month + 1, day := 1 } := by
  rw [nextDay, if_neg (by omega), if_pos h]

theorem nextDay_of_last_month {t : Stamp} (last : t.day = 31) (december : t.month = 12) (h : t.year < 2099) :
    nextDay t = { t with year := t.year + 1, month := 1, day := 1 } := by
  rw [nextDay, december, daysInMonth_december, if_neg (by omega), if_neg (by omega), if_pos h]

theorem nextDay_of_end {t : Stamp} (last : t.day = 31) (december : t.month = 12) (h : t.year = 2099) : nextDay t = t := by
  rw [nextDay, december, daysInMonth_december, if_neg (by omega), if_neg (by omega), if_neg (by omega)]

/-- The four cases of the next day. -/
theorem nextDay_cases {t : Stamp} (h : t.Proper) :
    (t.day < daysInMonth t.year t.month ∧ nextDay t = { t with day := t.day + 1 }) ∨
    (t.day = daysInMonth t.year t.month ∧ t.month < 12 ∧ nextDay t = { t with month := t.month + 1, day := 1 }) ∨
    (t.day = 31 ∧ t.month = 12 ∧ t.year < 2099 ∧ nextDay t = { t with year := t.year + 1, month := 1, day := 1 }) ∨
    (t.day = 31 ∧ t.month = 12 ∧ t.year = 2099 ∧ nextDay t = t) := by
  obtain within | last := h.dayHigh.lt_or_eq
  · exact .inl ⟨within, nextDay_of_within_month within⟩
  · obtain early | december := h.monthHigh.lt_or_eq
    · exact .inr (.inl ⟨last, early, nextDay_of_last_day last early⟩)
    · have day : t.day = 31 := by rw [last, december, daysInMonth_december]
      obtain before | final := h.yearHigh.lt_or_eq
      · exact .inr (.inr (.inl ⟨day, december, before, nextDay_of_last_month day december before⟩))
      · exact .inr (.inr (.inr ⟨day, december, final, nextDay_of_end day december final⟩))

theorem nextDay_second_block (t : Stamp) : (nextDay t).second = t.second ∧ (nextDay t).block = t.block := by
  unfold nextDay; repeat' split
  all_goals exact ⟨rfl, rfl⟩

theorem nextDay_proper {t : Stamp} (h : t.Proper) : (nextDay t).Proper := by
  obtain ⟨within, e⟩ | ⟨-, early, e⟩ | ⟨-, -, before, e⟩ | ⟨-, -, -, e⟩ := nextDay_cases h <;> rw [e]
  · exact { h with dayLow := Nat.succ_pos _, dayHigh := within }
  · exact { h with monthLow := Nat.succ_pos _, monthHigh := early, dayLow := le_rfl, dayHigh := daysInMonth_pos _ _ }
  · exact { h with
      yearLow := h.yearLow.trans (Nat.le_succ _), yearHigh := before, monthLow := le_rfl, monthHigh := Nat.succ_pos 11
      dayLow := le_rfl, dayHigh := daysInMonth_pos _ _ }
  · exact h

theorem daysBeforeMonth_succ (year : Nat) {month : Nat} (h : 1 ≤ month) :
    daysBeforeMonth year (month + 1) = daysBeforeMonth year month + daysInMonth year month := by
  obtain ⟨m, rfl⟩ := Nat.exists_eq_add_of_le' h
  rfl

/-- A year has 365 days, a leap year 366 (R57). -/
theorem daysBeforeMonth_december (year : Nat) :
    daysBeforeMonth year 12 + 31 = 365 + if year % 4 = 0 then 1 else 0 := by
  by_cases leap : year % 4 = 0 <;> simp [daysBeforeMonth, daysInMonth, isLeap_iff, leap]

theorem dayNumber_nextDay {t : Stamp} (h : t.Proper) (notEnd : (t.year, t.month, t.day) ≠ (2099, 12, 31)) :
    dayNumber (nextDay t) = dayNumber t + 1 := by
  have dayLow := h.dayLow
  have yearLow := h.yearLow
  obtain ⟨-, e⟩ | ⟨last, -, e⟩ | ⟨day, december, -, e⟩ | ⟨day, december, year, -⟩ := nextDay_cases h
  · rw [e]; simp only [dayNumber]; omega
  · rw [e]; simp only [dayNumber, daysBeforeMonth_succ _ h.monthLow]; omega
  · rw [e]
    have whole := daysBeforeMonth_december t.year
    simp only [dayNumber, december, day, daysBeforeYear, daysBeforeMonth]
    simp only [daysBeforeMonth] at whole
    split at whole <;> omega
  · rw [day, december, year] at notEnd; exact absurd rfl notEnd

/-- Settles O31: by the four cases of the next day. -/
theorem nextDayCountsOn : Obligations.NextDayCountsOn := by
  refine ⟨by decide, by decide, fun t valid => ?_⟩
  have h := (Stamp.valid_iff t).1 valid
  refine ⟨(Stamp.valid_iff _).2 (nextDay_proper h), (nextDay_second_block t).1, (nextDay_second_block t).2,
    fun notEnd => ⟨dayNumber_nextDay h notEnd, ?_⟩, fun last => ?_, nextDay_of_within_month, nextDay_of_last_day,
    nextDay_of_last_month, daysInMonth_eq_table _ _ h.monthLow h.monthHigh⟩
  · rw [dayOfWeek, dayNumber_nextDay h notEnd, dayOfWeek]; omega
  · simp only [Prod.mk.injEq] at last
    exact nextDay_of_end last.2.2 last.2.1 last.1

/-! ### The advance (R56, R58) -/

theorem advance_proper {t : Stamp} (h : t.Proper) : (advance t).Proper := by
  unfold advance
  split
  next room => exact { h with block := Nat.le_of_lt_succ room }
  next =>
    split
    next room => exact { h with second := Nat.le_of_lt_succ room, block := Nat.zero_le _ }
    next => exact { nextDay_proper h with second := Nat.zero_le _, block := Nat.zero_le _ }

/-- The blocks of the day before a reading. -/
def Stamp.blockOfDay (t : Stamp) : Nat := 1000 * t.second + t.block

/-- Before the day ends each advance counts one block. -/
theorem advance_blockOfDay {t : Stamp} (block : t.block ≤ 999) (h : t.blockOfDay + 1 < 86400000) :
    (advance t).blockOfDay = t.blockOfDay + 1 ∧ (advance t).block ≤ 999 := by
  unfold Stamp.blockOfDay at h
  unfold advance Stamp.blockOfDay
  split
  next => dsimp only; omega
  next => rw [if_pos (by omega)]; dsimp only; omega

/-- The last advance of a day leads to its midnight. -/
theorem advance_midnight {t : Stamp} (block : t.block ≤ 999) (h : t.blockOfDay + 1 = 86400000) :
    (advance t).second = 0 ∧ (advance t).block = 0 := by
  unfold Stamp.blockOfDay at h
  unfold advance
  rw [if_neg (by omega), if_neg (by omega)]
  exact ⟨rfl, rfl⟩

theorem iterate_advance {t : Stamp} (block : t.block ≤ 999) (j : Nat) (h : t.blockOfDay + j < 86400000) :
    (advance^[j] t).blockOfDay = t.blockOfDay + j ∧ (advance^[j] t).block ≤ 999 := by
  induction j with
  | zero => exact ⟨rfl, block⟩
  | succ j ih =>
    obtain ⟨count, below⟩ := ih (by omega)
    rw [Function.iterate_succ_apply']
    have step := advance_blockOfDay below (by omega)
    exact ⟨by rw [step.1, count]; rfl, step.2⟩

/-- The instant at which an interval of `len` seconds opened at `t` nominally closes, in seconds of the day. -/
def nominalClose (len : Nat) (t : Stamp) : Nat := min ((t.second / len + 1) * len) 86400

theorem nominalSamples_eq (len : Nat) (t : Stamp) :
    nominalSamples len t = 48 * (1000 * nominalClose len t - t.blockOfDay) := by
  unfold nominalSamples nominalClose Stamp.blockOfDay
  omega

theorem second_lt_nominalClose {len : Nat} {t : Stamp} (pos : 1 ≤ len) (h : t.second ≤ 86399) :
    t.second < nominalClose len t :=
  lt_min (by rw [Nat.add_mul, one_mul, mul_comm]; exact Nat.lt_mul_div_succ _ pos) (by omega)

/-- No second between an opening and its nominal close is aligned. -/
theorem nominalClose_le {len second : Nat} {t : Stamp} (later : t.second < second)
    (aligned : second % len = 0) : nominalClose len t ≤ second := by
  obtain ⟨q, rfl⟩ := Nat.dvd_of_mod_eq_zero aligned
  have : t.second / len < q := Nat.div_lt_of_lt_mul later
  calc nominalClose len t ≤ (t.second / len + 1) * len := min_le_left _ _
    _ ≤ q * len := Nat.mul_le_mul_right _ this
    _ = len * q := mul_comm _ _

/-- Settles O33: from the opening on each advance counts one block, up to the nominal close, which is the first second of the
day after the opening's that is aligned, or midnight. -/
theorem nominalSamplesReachBoundary : Obligations.NominalSamplesReachBoundary := by
  intro len t pos _ valid aligned
  obtain ⟨-, -, -, -, -, -, second, block⟩ := (Stamp.valid_iff t).1 valid
  have later := second_lt_nominalClose pos second
  have close : nominalClose len t ≤ 86400 := min_le_right _ _
  obtain ⟨b, hb⟩ : ∃ b, 1000 * nominalClose len t = t.blockOfDay + b :=
    Nat.exists_eq_add_of_le (by unfold Stamp.blockOfDay; omega)
  have positive : 0 < b := by unfold Stamp.blockOfDay at hb; omega
  refine ⟨b, positive, by rw [nominalSamples_eq, hb, Nat.add_sub_cancel_left], ?_, ?_⟩
  · obtain midnight | before := close.eq_or_lt
    · obtain ⟨j, rfl⟩ : ∃ j, b = j + 1 := ⟨_, (Nat.succ_pred (by omega)).symm⟩
      obtain ⟨count, below⟩ := iterate_advance block j (by omega)
      obtain ⟨zeroSecond, zeroBlock⟩ := advance_midnight below (by omega)
      rw [Function.iterate_succ_apply']
      exact ⟨zeroBlock, by rw [zeroSecond, Nat.zero_mod]⟩
    · obtain ⟨count, below⟩ := iterate_advance block b (by omega)
      have multiple : nominalClose len t = (t.second / len + 1) * len := min_eq_left (by
        by_contra beyond
        rw [nominalClose, min_eq_right (by omega)] at before
        omega)
      rw [← hb, Stamp.blockOfDay] at count
      have reached : (advance^[b] t).second = nominalClose len t := by omega
      exact ⟨by omega, by rw [reached, multiple, Nat.mul_mod_left]⟩
  · rintro j first short ⟨zero, multiple⟩
    obtain ⟨count, -⟩ := iterate_advance block j (by omega)
    unfold Stamp.blockOfDay at count hb
    have := nominalClose_le (by omega : t.second < (advance^[j] t).second) multiple
    omega

end Sys2Proof.Machine
end

section
/-! PROOFS. Site time, the alert line and the live counter keep to their ranges (R55 to R61, R120 to R123, R160, R166, R170). -/

namespace Sys2Proof.Machine

/-! ### Site time -/

/-- A reading and a pending load are no business of the boundary operation (R68). -/
theorem closeInterval_clock (s : State) (iv : Interval) (cause : CloseCause) :
    (s.closeInterval iv cause).clock = { s.clock with entryInForce := none } := by
  have records : (Chan.all.foldl (State.recordChannel iv cause) s).clock = s.clock :=
    foldl_keeps (fun u => u.clock = s.clock) _ _ (fun c _ u hu => by rw [recordChannel_clock]; exact hu) s rfl
  unfold State.closeInterval
  dsimp only
  rw [records]

theorem openInterval_clock (s : State) (pick : Nat → Nat) (clamps : Quad Nat) (applied : Bool) :
    (s.openInterval pick clamps applied).clock =
      { s.clock with entryInForce := some (lookup s.active.schedule s.handed.report.reading) } := by
  unfold State.openInterval
  simp

theorem State.enterMeasuring_clock (s : State) (pick : Nat → Nat) :
    ∃ e, (s.enterMeasuring pick).clock = { s.clock with entryInForce := e } := by
  unfold State.enterMeasuring
  dsimp only
  split
  · exact ⟨_, by rw [openInterval_clock, applyCommit_clock]⟩
  · exact ⟨_, openInterval_clock ..⟩

/-- The boundary operation leaves the reading and a pending load. -/
theorem boundaryStep_clock (s : State) (pick : Nat → Nat) :
    ∃ e, (s.boundaryStep pick).clock = { s.clock with entryInForce := e } := by
  unfold State.boundaryStep State.openingBoundary
  dsimp only
  split
  next iv _ =>
    split
    next cause _ =>
      split
      · exact ⟨_, by rw [enterHeld_clock, closeInterval_clock]⟩
      · obtain ⟨e, he⟩ := (s.closeInterval iv cause).enterMeasuring_clock pick
        exact ⟨e, by rw [he, closeInterval_clock]⟩
    next => exact ⟨_, rfl⟩
  next =>
    split
    · split
      · refine ⟨s.clock.entryInForce, ?_⟩
        rw [enterHeld_clock]
        split <;> rfl
      · exact s.enterMeasuring_clock pick
    · split
      · exact ⟨_, rfl⟩
      · exact ⟨_, rfl⟩

theorem clockStep_clockHeld {s : State} (h : ClockHeld s) : ClockHeld s.clockStep := by
  unfold State.clockStep
  split
  next none => exact ⟨(Stamp.valid_iff _).2 (advance_proper ((Stamp.valid_iff _).1 h.1)), h.2⟩
  next t pending => exact ⟨h.2 t pending, fun _ none => nomatch none⟩

/-- No command loads the clock with a reading that is no date and time. -/
theorem clockHeld_keptBy (i : Instr) : KeptBy ClockHeld ClockHeld i := by
  have block : BlockKept ClockHeld := {
    clock := fun _ h => clockStep_clockHeld h
    boundary := fun s h => by
      obtain ⟨e, he⟩ := boundaryStep_clock s Config.pick
      rw [ClockHeld, he]
      exact h }
  exact {
    powerOn := fun _ _ _ _ _ => ⟨(by decide : Stamp.powerOn.valid = true), fun _ none => nomatch none⟩
    finish := block.finish
    upTo := block.upTo
    rule := RuleKept.send
      { softReset := fun s body hs => by rw [ClockHeld, softResetRule_frame]; exact hs
        setTime := fun s t _ valid hs => ⟨hs.1, fun _ e => Option.some.inj e ▸ valid⟩ }
      fun s kind tag body hs => by rw [reply_frame]; exact hs }

/-! ### The alert line -/

/-- The alert line's counter and half-period in their ranges. -/
structure AlertLine.Held (a : AlertLine) : Prop where
  low : 1 ≤ a.flashCounter
  high : a.flashCounter ≤ a.halfPeriod
  period : 50 ≤ a.halfPeriod ∧ a.halfPeriod ≤ 2000
  pending : ∀ m h, a.pendingSetting = some (m, h) → 50 ≤ h ∧ h ≤ 2000

theorem alertHeld_iff (s : State) : AlertHeld s ↔ s.alert.Held :=
  ⟨fun h => ⟨h.low, h.high, h.period, h.pending⟩, fun h => ⟨h.low, h.high, h.period, h.pending⟩⟩

theorem AlertLine.Held.blockEnd {a : AlertLine} (h : a.Held) (cond : AlertCondition) : (a.blockEnd cond).Held := by
  unfold AlertLine.blockEnd
  split
  next =>
    unfold AlertLine.toggle
    dsimp only
    split
    next m half pending =>
      have range := h.pending m half pending
      exact ⟨le_rfl, by dsimp only; omega, range, fun _ _ none => nomatch none⟩
    next => exact ⟨le_rfl, h.low.trans h.high, h.period, h.pending⟩
  next notAt =>
    have notAt : a.flashCounter ≠ a.halfPeriod := by simpa [AlertLine.atToggle] using notAt
    have high := h.high
    exact ⟨Nat.succ_pos _, by dsimp only; omega, h.period, h.pending⟩

theorem alertHeld_keptBy (i : Instr) : KeptBy (fun s => s.alert.Held) (fun s => s.alert.Held) i := by
  have block : BlockKept fun s => s.alert.Held := { alert := fun _ h => h.blockEnd _ }
  exact {
    powerOn := fun _ _ _ _ _ => ⟨Nat.le_refl 1, Nat.succ_pos 499, ⟨Nat.le_add_left 50 450, Nat.le_add_right 500 1500⟩,
      fun _ _ none => nomatch none⟩
    finish := block.finish
    upTo := block.upTo
    rule := RuleKept.send
      { softReset := fun s body hs => by
          rw [softResetRule_frame]
          exact ⟨Nat.le_refl 1, hs.low.trans hs.high, hs.period, hs.pending⟩
        setAlert := fun s m half low high hs => ⟨hs.low, hs.high, hs.period, by rintro _ _ ⟨⟩; exact ⟨low, high⟩⟩ }
      fun s kind tag body hs => by rw [reply_frame]; exact hs }

/-! ### The live counter and the reporting settings -/

/-- The live counter and the reporting settings in their ranges. -/
structure ReportQueue.Held (q : ReportQueue) : Prop where
  counter : q.liveCounter < q.livePeriod
  period : 100 ≤ q.livePeriod ∧ q.livePeriod ≤ 10000
  items : 1 ≤ q.items.length ∧ q.items.length ≤ 8 ∧ q.items.Nodup
  slot : q.liveSlot.isSome = true → q.liveOn = true

theorem liveHeld_iff (s : State) : LiveHeld s ↔ s.report.Held :=
  ⟨fun h => ⟨h.counter, h.period, h.items, h.slot⟩, fun h => ⟨h.counter, h.period, h.items, h.slot⟩⟩

theorem transmit_liveSlot (s : State) :
    s.transmit.report.liveSlot = s.report.liveSlot ∨ s.transmit.report.liveSlot = none := by
  unfold State.transmit ReportQueue.afterNotice
  repeat' split
  all_goals simp

namespace ReportQueue.Held

theorem transmit {s : State} (h : s.report.Held) : s.transmit.report.Held := by
  have slot : s.transmit.report.liveSlot.isSome = true → s.report.liveOn = true := by
    obtain e | e := transmit_liveSlot s <;> rw [e]
    · exact h.slot
    · exact fun none => nomatch none
  rw [transmit_settings]
  exact ⟨h.counter, h.period, h.items, slot⟩

theorem enqueue {q : ReportQueue} (h : q.Held) (n : Notice) : (q.enqueue n).Held := by
  unfold ReportQueue.enqueue
  split <;> exact ⟨h.counter, h.period, h.items, h.slot⟩

theorem offer {s : State} (h : s.report.Held) (c : Option Chan) (stamp : Stamp) (body : EventBody) :
    (s.offer c stamp body).report.Held := by
  unfold State.offer
  split
  next =>
    have entered : ({ s with report := s.report.enqueue ⟨c, stamp, body⟩ } : State).report.Held := h.enqueue _
    exact entered.transmit
  next => exact h

theorem putRecord {s : State} (h : s.report.Held) (stamp : Stamp) (r : IntervalRecord) :
    (s.putRecord stamp r).report.Held := by
  have append (u : State) (hu : u.report.Held) : (State.transmit { u with fifo := u.fifo ++ [r] }).report.Held := by
    have entered : ({ u with fifo := u.fifo ++ [r] } : State).report.Held := hu
    exact entered.transmit
  unfold State.putRecord
  dsimp only
  split
  next oldest rest _ =>
    split
    · have dropped : ({ s with fifo := rest, recordsLost := bump 65535 s.recordsLost } : State).report.Held := h
      exact append _ (dropped.offer ..)
    · exact append s h
  next => exact append s h

theorem live {s : State} (h : s.report.Held) : s.liveStep.report.Held := by
  have zero : 0 < s.report.livePeriod := (Nat.zero_lt_succ 99).trans_le h.period.1
  unfold State.liveStep State.takeImage
  dsimp only
  split
  next =>
    split
    next on =>
      have entered (u : State) (r : LiveReport) (n : Nat)
          (hu : u.report = { s.report with liveCounter := 0, liveSlot := some r, liveOverwritten := n }) :
          u.transmit.report.Held :=
        transmit (by rw [hu]; exact ⟨zero, h.period, h.items, fun _ => on⟩)
      exact entered _ _ _ rfl
    next => exact ⟨zero, h.period, h.items, h.slot⟩
  next notAt =>
    have notAt : s.report.liveCounter + 1 < s.report.livePeriod := by simpa [ReportQueue.atLivePoint] using notAt
    exact ⟨notAt, h.period, h.items, h.slot⟩

theorem queueKept : QueueKept fun s => s.report.Held where
  quiet _ _ _ _ report _ h := report ▸ h
  offer _ c stamp body h := h.offer c stamp body
  putRecord _ stamp r h := h.putRecord stamp r
  move _ _ _ h := h

theorem reply {s : State} (h : s.report.Held) (kind tag : Byte) (body : List Byte) : (s.reply kind tag body).report.Held := by
  have entered : ({ s with
      report := { s.report with replies := s.report.replies ++ [⟨kind, tag, body⟩] } } : State).report.Held :=
    ⟨h.counter, h.period, h.items, h.slot⟩
  exact entered.transmit

theorem drain {s : State} (h : s.report.Held) : s.drain.report.Held := by
  unfold State.drain
  split
  · have lent : ({ s with capture := { s.capture with lend := .lent } } : State).report.Held := h
    exact lent.offer ..
  · exact h

theorem completeRead {s : State} (h : s.report.Held) (region : Fin 16) (position : Nat) :
    (s.completeRead region position).report.Held := by
  unfold State.completeRead
  dsimp only
  split
  next => exact h
  next j _ =>
    split
    · exact h
    · have ended : ({ s with
          capture := { s.capture with inFlight := none, job := none }
          report := { s.report with reserved := 0 } } : State).report.Held := ⟨h.counter, h.period, h.items, h.slot⟩
      exact ended.reply ..

end ReportQueue.Held

theorem liveHeld_keptBy (i : Instr) : KeptBy (fun s => s.report.Held) (fun s => s.report.Held) i := by
  have kept := ReportQueue.Held.queueKept
  have rules : RuleKept (fun s => s.report.Held) i := {
    softReset := fun s body => kept.softResetRule
      (fun u h => ⟨(Nat.zero_lt_succ 99).trans_le h.period.1, h.period, h.items, fun none => nomatch none⟩)
      (fun u m h => ⟨h.counter, h.period, h.items, h.slot⟩) body s
    commitNow := fun s _ _ => kept.commitAtOnce s _
    configure := fun s r legal h =>
      ⟨(Nat.zero_lt_succ 99).trans_le legal.period.1, legal.period, legal.items, by
        have slot := h.slot
        unfold ReportQueue.configure
        dsimp only
        split
        · exact fun _ => ‹_›
        · exact fun none => nomatch none⟩
    choose := fun s h => h.transmit
    readEvent := fun s h => ⟨h.counter, h.period, h.items, h.slot⟩
    startCheck := fun s _ p _ _ _ => kept.beginCheck s p
    abortCheck := fun s => kept.cutCheck s _ _ }
  exact {
    powerOn := fun _ _ _ _ _ => ⟨Nat.zero_lt_succ 999, ⟨Nat.le_add_right 100 900, Nat.le_add_right 1000 9000⟩,
      ⟨Nat.le_add_left 1 3, Nat.le_add_right 4 4, by
        change ([.fLevel, .leqSoFar, .gainStep, .budgetUsed] : List LiveItem).Nodup; decide⟩, fun none => nomatch none⟩
    finish := (kept.block fun _ h => h.live).finish
    upTo := (kept.block fun _ h => h.live).upTo
    frame := fun s gap x1 x2 x3 x4 act _ _ => kept.sampleFrame s gap x1 x2 x3 x4 act
    stall := fun s _ _ => kept.enterStalled _ s
    reply := fun s kind tag body _ h => h.reply kind tag body
    rule := RuleKept.send rules fun s kind tag body h => h.reply kind tag body
    lend := fun s tag _ _ h => by
      have lending : ({ s with capture := { s.capture with lend := .lending } } : State).report.Held := h
      exact (lending.reply ..).drain
    read := fun s tag body j _ _ h => ⟨h.counter, h.period, h.items, h.slot⟩
    transmit := fun s h => by
      have ended : ({ s with report := { s.report with sending := none } } : State).report.Held :=
        ⟨h.counter, h.period, h.items, h.slot⟩
      exact ended.transmit
    writeDone := fun s e _ _ h => by
      have written : (State.arbitrate { s with
          memory := Memory.writeAll s.memory (captureAddress e.region e.position) e.bytes
          capture := { s.capture with inFlight := none } }).report.Held := h
      exact written.drain
    readDone := fun s region position _ h => h.completeRead region position }

/-- Settles O10: the three parts are kept one by one. -/
theorem countersHeldByStep : Obligations.CountersHeldByStep := by
  rintro s t ⟨clock, alert, live⟩ h
  rw [alertHeld_iff] at alert ⊢
  rw [liveHeld_iff] at live ⊢
  exact ⟨step_keeps (fun _ _ hs => hs) clockHeld_keptBy clock h, step_keeps (fun _ _ hs => hs) alertHeld_keptBy alert h,
    step_keeps (fun _ _ hs => hs) liveHeld_keptBy live h⟩

end Sys2Proof.Machine
end

section
/-! PROOFS. The roles of the regions (R127) and the positions of the memory port (R126): what the capture controller's moves
keep, and that the block stops only at a position outside the memory. -/

namespace Sys2Proof.Machine

/-! ### Roles -/

theorem Capture.count_set (k : Capture) (p : Role → Bool) (i : Fin 16) (r : Role) :
    (k.regions.set i r).toList.countP p + (if p k.regions[i] then 1 else 0) = k.count p + if p r then 1 else 0 := by
  have at_ : k.regions.toList[i.val]'(by simp) = k.regions[i] := by simp
  have held : p k.regions[i] = true → 1 ≤ k.regions.toList.countP p := fun h =>
    List.one_le_countP_iff.2 ⟨k.regions[i], by simp, h⟩
  rw [Vector.toList_set, List.countP_set (by simp), at_, Capture.count]
  by_cases h : p k.regions[i] = true
  · have := held h; simp only [h, if_true]; omega
  · simp only [if_neg h]; omega

theorem Capture.count_release (k : Capture) (p : Role → Bool) (younger : ∀ age r, p (r.younger age) = p r) (i : Fin 16)
    (d : Descriptor) : (k.release i d).count p = (k.regions.set i .free).toList.countP p := by
  unfold Capture.release Capture.count
  rw [Vector.toList_map, List.countP_map]
  exact congrArg (List.countP · _) (funext fun r => younger d.age r)

/-- Each channel has exactly one ring and at most one recording. -/
def Capture.RolesKept (k : Capture) : Prop :=
  ∀ c, k.count (Role.isRingOf c) = 1 ∧ k.count (Role.isRecordingOf c) ≤ 1

/-- A region whose role counts as another does not change a count. -/
theorem Capture.count_set_same (k : Capture) (p : Role → Bool) {i : Fin 16} {r : Role} (same : p r = p k.regions[i]) :
    (k.regions.set i r).toList.countP p = k.count p := by
  have := k.count_set p i r
  rw [same] at this
  omega

theorem Capture.Move.roles {k k' : Capture} (move : Capture.Move k k') (h : k.RolesKept) : k'.RolesKept := by
  intro c
  obtain ⟨ring, recording⟩ := h c
  cases move with
  | @renew i d d' tail tail' was chan start =>
    refine ⟨(k.count_set_same _ ?_).trans ring, (k.count_set_same _ ?_).trans_le recording⟩
    · rw [was]; rfl
    · rw [was]; simp [Role.isRecordingOf, chan]
  | @store i d d' tail was chan start =>
    have count := k.count_set (Role.isRecordingOf c) i (.stored d')
    refine ⟨(k.count_set_same _ ?_).trans ring, ?_⟩
    · rw [was]; rfl
    · simp only [Capture.count]
      rw [show Role.isRecordingOf c (.stored d') = false from rfl, if_neg Bool.false_ne_true] at count
      omega
  | @swap c' ringAt i d was none free chan start =>
    have apart : ringAt ≠ i := by rintro rfl; rw [was] at free; cases free
    have second (p : Role → Bool) :
        ((k.regions.set ringAt (.recording d .none)).set i (.ring c')).toList.countP p + (if p .free then 1 else 0) =
          (k.regions.set ringAt (.recording d .none)).toList.countP p + if p (.ring c') then 1 else 0 := by
      have := Capture.count_set { k with regions := k.regions.set ringAt (.recording d .none) } p i (.ring c')
      rwa [show (k.regions.set ringAt (.recording d .none))[i] = .free from
        (Vector.getElem_set_ne ringAt.isLt i.isLt (fun e => apart (Fin.ext e))).trans free] at this
    have ringCount := k.count_set (Role.isRingOf c) ringAt (.recording d .none)
    have recordingCount := k.count_set (Role.isRecordingOf c) ringAt (.recording d .none)
    have ringSecond := second (Role.isRingOf c)
    have recordingSecond := second (Role.isRecordingOf c)
    have noneOf (e : c' = c) : k.count (Role.isRecordingOf c) = 0 := by
      subst e
      refine List.countP_eq_zero.2 fun r hr => ?_
      obtain ⟨j, hj, rfl⟩ := List.getElem_of_mem hr
      have := none ⟨j, by simpa using hj⟩
      simpa using this
    rw [was] at ringCount recordingCount
    simp only [Role.isRingOf, Role.isRecordingOf, chan, decide_eq_true_eq, Bool.false_eq_true, if_false] at *
    unfold Capture.swap Capture.count
    by_cases e : c' = c
    · have := noneOf e
      simp only [e, if_true] at *
      exact ⟨by omega, by omega⟩
    · simp only [e, if_false] at *
      exact ⟨by omega, by omega⟩
  | @release i d was =>
    rw [k.count_release _ (fun _ _ => Role.isRingOf_younger ..), k.count_release _ (fun _ _ => Role.isRecordingOf_younger ..)]
    exact ⟨(k.count_set_same _ (by rw [was]; rfl)).trans ring, (k.count_set_same _ (by rw [was]; rfl)).trans_le recording⟩
  | push room inside => rw [Capture.count, Capture.count, Capture.push_regions]; exact ⟨ring, recording⟩
  | mark | ring | restart => exact ⟨ring, recording⟩

/-! ### Positions -/

/-- Every position the memory port can be given lies in its region. -/
structure Capture.Inside (k : Capture) : Prop where
  heads : ∀ c, (k.rings.get c).head < 10000
  starts : ∀ i : Fin 16, ∀ d, (k.regions[i]).descriptor = some d → d.start < 10000
  buffer : ∀ e ∈ k.buffer, e.position < 10000
  write : ∀ e, k.inFlight = some (.write e) → e.position < 10000
  read : ∀ r p, k.inFlight = some (.read r p) → p < 10000

theorem positionsHeld_iff (s : State) : PositionsHeld s ↔ s.capture.Inside :=
  ⟨fun h => ⟨h.heads, h.starts, h.buffer, h.write, h.read⟩, fun h => ⟨h.heads, h.starts, h.buffer, h.write, h.read⟩⟩

theorem Role.descriptor_younger {age : Nat} {r : Role} {d : Descriptor} (h : (r.younger age).descriptor = some d) :
    ∃ d', r.descriptor = some d' ∧ d.start = d'.start := by
  cases r with
  | recording d' tail => cases h; refine ⟨d', rfl, ?_⟩; split <;> rfl
  | stored d' => cases h; refine ⟨d', rfl, ?_⟩; split <;> rfl
  | ring | free => cases h

/-- The arbiter chooses an entry of the buffer, or a position of a job in circular order. -/
theorem Capture.choose_cases {k : Capture} {op : MemoryOp} {rest : List BufferEntry} (h : k.choose = some (op, rest)) :
    (∃ e, op = .write e ∧ k.buffer = e :: rest) ∨ ∃ i p, op = .read i p ∧ p < 10000 ∧ rest = k.buffer := by
  have inside {i : Fin 16} {p : Nat} (waiting : k.waitingRead = some (i, p)) : p < 10000 := by
    unfold Capture.waitingRead at waiting
    split at waiting
    · cases waiting
    · dsimp only at waiting
      split at waiting
      · cases waiting; exact circular_lt ..
      · cases waiting
  unfold Capture.choose at h
  split at h
  next e es i p buffer waiting =>
    split at h
    · cases h; exact .inl ⟨e, rfl, buffer⟩
    · cases h; exact .inr ⟨i, p, rfl, inside waiting, buffer.symm⟩
  next e es buffer _ => cases h; exact .inl ⟨e, rfl, buffer⟩
  next i p buffer waiting => cases h; exact .inr ⟨i, p, rfl, inside waiting, buffer.symm⟩
  next => cases h

namespace Capture.Inside

variable {k : Capture} (h : k.Inside)
include h

theorem arbitrate : k.arbitrate.Inside := by
  unfold Capture.arbitrate
  split
  · exact h
  · exact h
  · split
    next op rest chosen =>
      obtain ⟨e, rfl, buffer⟩ | ⟨i, p, rfl, inside, rfl⟩ := Capture.choose_cases chosen
      · have all := h.buffer
        rw [buffer] at all
        exact ⟨h.heads, h.starts, fun x hx => all x (List.mem_cons_of_mem e hx),
          by rintro _ ⟨⟩; exact all e List.mem_cons_self, fun _ _ => (nomatch ·)⟩
      · exact ⟨h.heads, h.starts, h.buffer, fun _ => (nomatch ·), by rintro _ _ ⟨⟩; exact inside⟩
    next => exact h

theorem setRegion {i : Fin 16} {r : Role} (start : ∀ d, r.descriptor = some d → d.start < 10000) :
    ({ k with regions := k.regions.set i r } : Capture).Inside := by
  refine ⟨h.heads, fun j d found => ?_, h.buffer, h.write, h.read⟩
  simp only [Fin.getElem_fin, Vector.getElem_set] at found
  split at found
  · exact start d found
  · exact h.starts j d found

theorem setRing {c : Chan} {r : Ring} (head : r.head < 10000) : ({ k with rings := k.rings.set c r } : Capture).Inside := by
  refine ⟨fun c' => ?_, h.starts, h.buffer, h.write, h.read⟩
  rw [Quad.get_set]
  split
  · exact head
  · exact h.heads c'

theorem descriptor {i : Fin 16} {d : Descriptor} {tail : Option Nat} (was : k.regions[i] = .recording d tail) :
    d.start < 10000 := h.starts i d (by rw [was]; rfl)

theorem move {k' : Capture} (move : Capture.Move k k') : k'.Inside := by
  cases move with
  | renew was chan start =>
    exact h.setRegion (by rintro _ ⟨⟩; rw [start]; exact h.descriptor was)
  | store was chan start =>
    exact h.setRegion (by rintro _ ⟨⟩; rw [start]; exact h.descriptor was)
  | @swap c ring i d was none free chan start =>
    have regions := (h.setRegion (i := ring) (r := .recording d .none) (by rintro _ ⟨⟩; exact start)).setRegion (i := i) (r := .ring c) (fun _ => (nomatch ·))
    have rings := regions.setRing (c := c) (r := .empty) (Nat.succ_pos _)
    exact ⟨rings.heads, rings.starts, rings.buffer, rings.write, rings.read⟩
  | release was =>
    refine ⟨h.heads, fun j d found => ?_, h.buffer, h.write, h.read⟩
    rw [Capture.release_regions] at found
    split at found
    · cases found
    · obtain ⟨d', found', start⟩ := Role.descriptor_younger found
      rw [start]
      exact h.starts j d' found'
  | mark => exact ⟨h.heads, h.starts, h.buffer, h.write, h.read⟩
  | @push e room inside =>
    have position : e.position < 10000 := by
      obtain inside | ⟨c, inside⟩ := inside
      · exact inside
      · rw [inside]; exact h.heads c
    refine arbitrate ⟨h.heads, h.starts, fun x hx => ?_, h.write, h.read⟩
    obtain old | new := List.mem_append.1 hx
    · exact h.buffer x old
    · rw [List.mem_singleton.1 new]; exact position
  | @ring c r inside =>
    obtain inside | inside := inside
    · exact h.setRing inside
    · exact h.setRing (by rw [inside]; exact h.heads c)
  | restart keep =>
    exact ⟨fun c => by simp [Capture.emptyRings, Ring.empty], h.starts, fun e he => h.buffer e (List.mem_of_mem_filter he),
      h.write, h.read⟩

end Capture.Inside

/-! ### What a property of the capture controller alone asks for -/

/-- What the capture controller's moves, the memory port and the commands of chapter 7 keep of the capture controller's state,
a step keeps. -/
structure CaptureKept (Q : Capture → Prop) : Prop where
  powerOn : Q State.reset.capture
  move : ∀ {k k'}, Capture.Move k k' → Q k → Q k'
  settings : ∀ k protect pre tail, Q k → Q { k with protect := protect, preLength := pre, tailLength := tail }
  lend : ∀ k state, Q k → Q { k with lend := state }
  job : ∀ k j, Q k → Q { k with job := j }
  port : ∀ k, Q k → Q { k with inFlight := none }
  arbitrate : ∀ k, Q k → Q k.arbitrate

namespace CaptureKept

variable {Q : Capture → Prop} (k : CaptureKept Q)
include k

theorem queue : QueueKept fun s => Q s.capture where
  quiet _ _ _ capture _ _ h := capture ▸ h
  offer _ _ _ _ h := by rw [offer_capture]; exact h
  putRecord _ _ _ h := by rw [putRecord_capture]; exact h
  move _ _ move h := k.move move h

theorem drain (s : State) (h : Q s.capture) : Q s.drain.capture := by
  unfold State.drain
  split
  · rw [offer_capture]; exact k.lend _ _ h
  · exact h

theorem rules (i : Instr) : RuleKept (fun s => Q s.capture) i where
  softReset s body h := k.queue.softResetRule (fun _ hu => hu) (fun _ _ hu => hu) body s h
  commitNow s _ _ h := k.queue.commitAtOnce s _ h
  setCapture s protect pre tail h := k.settings _ protect pre tail h
  release _ _ _ was h := k.move (.release was) h
  reclaim s _ h := k.lend _ .owned (k.move (.restart (fun _ => true)) h |> fun restarted => by
    rwa [List.filter_true] at restarted)
  startCheck s _ p _ _ _ h := k.queue.beginCheck s p h
  abortCheck s h := k.queue.cutCheck s _ _ h

theorem block : BlockKept fun s => Q s.capture :=
  k.queue.block fun _ h => by rw [liveStep_capture]; exact h

theorem keptBy (i : Instr) : KeptBy (fun s => Q s.capture) (fun s => Q s.capture) i where
  powerOn _ _ _ _ _ := k.powerOn
  finish := k.block.finish
  upTo := k.block.upTo
  frame s gap x1 x2 x3 x4 act _ _ h := k.queue.sampleFrame s gap x1 x2 x3 x4 act h
  stall s _ _ h := k.queue.enterStalled _ s h
  rule := RuleKept.send (k.rules i) fun s _ _ _ h => by rw [reply_capture]; exact h
  lend s tag _ _ h := by
    refine k.drain _ ?_
    rw [Answer.send, reply_capture]
    exact k.lend _ _ h
  read _ _ _ j _ _ h := k.arbitrate _ (k.job _ (some j) h)
  writeDone s e _ _ h := k.drain _ (k.arbitrate _ (k.port _ h))
  readDone s region position _ h := by
    unfold State.completeRead
    dsimp only
    split
    next => exact k.arbitrate _ (k.port _ h)
    next j _ =>
      split
      · exact k.arbitrate _ (k.job _ _ (k.port _ h))
      · refine k.arbitrate _ ?_
        rw [reply_capture]
        exact k.job _ none (k.port _ h)

end CaptureKept

theorem rolesKept : CaptureKept Capture.RolesKept where
  powerOn c := by cases c <;> decide
  move := Capture.Move.roles
  settings _ _ _ _ h := h
  lend _ _ h := h
  job _ _ h := h
  port _ h := h
  arbitrate k h := by rw [Capture.arbitrate_eq]; exact h

theorem insideKept : CaptureKept Capture.Inside where
  powerOn := ⟨fun c => by cases c <;> decide, fun i d => by revert d; revert i; decide, fun e => (nomatch ·),
    fun _ => (nomatch ·), fun _ _ => (nomatch ·)⟩
  move move h := h.move move
  settings _ _ _ _ h := ⟨h.heads, h.starts, h.buffer, h.write, h.read⟩
  lend _ _ h := ⟨h.heads, h.starts, h.buffer, h.write, h.read⟩
  job _ _ h := ⟨h.heads, h.starts, h.buffer, h.write, h.read⟩
  port _ h := ⟨h.heads, h.starts, h.buffer, fun _ => (nomatch ·), fun _ _ => (nomatch ·)⟩
  arbitrate _ h := h.arbitrate

/-! ### Where the block stops -/

/-- A command leads to a next state, except for the completion of an operation of the memory port at a position that does
not exist (log entry 20). -/
theorem exec_cases (i : Instr) (s : State) :
    (∃ t, exec i s = .next t) ∨
    (i = .memoryWriteDone ∧ ∃ e, (s.settle Config.pick).capture.inFlight = some (.write e) ∧ 10000 ≤ e.position ∧
      exec i s = .fault (.outsideCaptureMemory e.position)) ∨
    (i = .memoryReadDone ∧ ∃ r p, (s.settle Config.pick).capture.inFlight = some (.read r p) ∧ 10000 ≤ p ∧
      exec i s = .fault (.outsideCaptureMemory p)) := by
  cases i with
  | memoryWriteDone =>
    change (∃ t, execMemoryWriteDone s = .next t) ∨ (_ ∧ ∃ e, _ ∧ _ ∧ execMemoryWriteDone s = _) ∨ _
    unfold execMemoryWriteDone
    dsimp only
    split
    next e inFlight =>
      split
      next => exact .inl ⟨_, rfl⟩
      next outside => exact .inr (.inl ⟨rfl, e, inFlight, not_lt.1 outside, rfl⟩)
    next => exact .inl ⟨_, rfl⟩
  | memoryReadDone =>
    change (∃ t, execMemoryReadDone s = .next t) ∨ _ ∨ (_ ∧ ∃ r p, _ ∧ _ ∧ execMemoryReadDone s = _)
    unfold execMemoryReadDone
    dsimp only
    split
    next r p inFlight =>
      split
      next => exact .inl ⟨_, rfl⟩
      next outside => exact .inr (.inr ⟨rfl, r, p, inFlight, not_lt.1 outside, rfl⟩)
    next => exact .inl ⟨_, rfl⟩
  | _ => exact .inl ⟨_, rfl⟩

/-- Settles O17: by the outcomes of a command. -/
theorem stopsOnlyOutsideMemory : Obligations.StopsOnlyOutsideMemory := by
  intro i s
  obtain ⟨t, next⟩ | ⟨hi, e, -, outside, fault⟩ | ⟨hi, r, p, -, outside, fault⟩ := exec_cases i s
  · rw [next]; exact ⟨fun _ => (nomatch ·), fun _ => (nomatch ·)⟩
  · rw [fault]; exact ⟨fun _ => (nomatch ·), by rintro f ⟨⟩; exact ⟨.inl hi, _, outside, rfl⟩⟩
  · rw [fault]; exact ⟨fun _ => (nomatch ·), by rintro f ⟨⟩; exact ⟨.inr hi, _, outside, rfl⟩⟩

/-- With positions inside their regions a command leads to a next state. -/
theorem exec_next_of_inside (i : Instr) {s : State} (h : s.capture.Inside) : ∃ t, exec i s = .next t := by
  have settled : (s.settle Config.pick).capture.Inside := (insideKept.keptBy i).settle s h
  obtain next | ⟨-, e, inFlight, outside, -⟩ | ⟨-, r, p, inFlight, outside, -⟩ := exec_cases i s
  · exact next
  · exact absurd (settled.write e inFlight) (not_lt.2 outside)
  · exact absurd (settled.read r p inFlight) (not_lt.2 outside)

/-- Settles O13: the moves keep every position inside, and an operation at such a position does not stop the block. -/
theorem positionsHeldByStep : Obligations.PositionsHeldByStep := by
  intro s held
  rw [positionsHeld_iff] at held
  have next : ∃ t, step s = .next t := by
    unfold step
    split
    · exact exec_next_of_inside _ held
    · split
      · exact exec_next_of_inside _ held
      · exact ⟨_, rfl⟩
  obtain ⟨t, next⟩ := next
  exact ⟨t, next, (positionsHeld_iff t).2 (step_keeps (fun _ _ hs => hs) insideKept.keptBy held next)⟩

end Sys2Proof.Machine
end

section
/-! PROOFS. The check engine (R147, R149, R151, R154): a check's parameters, counter and sum exist only while it runs, and its
channel alone is frozen (R15); with the principle for properties of the range controllers, the units, the store and the engine. -/

namespace Sys2Proof.Machine

/-! ### Properties of port, range controllers, units, store and engine -/

/-- What keeps a property of the port, the range controllers, the units, the store, the check engine and the due steps: it depends
on these alone, and the end of a check and the commit of the staged copy keep it. -/
structure MeterKept (P : State → Prop) : Prop where
  quiet : ∀ s u : State, u.port = s.port → u.range = s.range → u.unit = s.unit → u.store = s.store → u.check = s.check →
    u.blockWork = s.blockWork → P s → P u
  cut : ∀ s result stamp, P s → P (s.cutCheck result stamp)
  commit : ∀ s : State, P s → P ((State.commitRanges { s with store := s.store.applied } s.store.active
    s.store.staged).commitUnits s.store.active s.store.staged)

namespace MeterKept

variable {P : State → Prop} (k : MeterKept P)
include k

theorem offer (s : State) (c : Option Chan) (stamp : Stamp) (body : EventBody) (hs : P s) : P (s.offer c stamp body) :=
  k.quiet s _ (by simp) (by simp) (by simp) (by simp) (by simp) (by simp) hs

theorem closeEpisode (s : State) (c : Chan) (reason : CloseReason) (stamp : Stamp) (hs : P s) :
    P (s.closeEpisode c reason stamp) :=
  k.quiet s _ (by simp) (by simp) (by simp) (by simp) (by simp) (by simp) hs

theorem markGap (s : State) (hs : P s) : P s.markGap := by
  rw [markGap_frame]; exact k.quiet s _ rfl rfl rfl rfl rfl rfl hs

theorem closeEach (s : State) (pick : Nat → Nat) (l : List Chan) (reason : CloseReason) (stamp : State → Stamp)
    (hs : P s) : P (s.eachFreely pick l fun c u => u.closeEpisode c reason (stamp u)) :=
  eachFreely_keeps P pick l _ (fun u _ hu => k.quiet u _ rfl rfl rfl rfl rfl rfl hu)
    (fun c _ u hu => k.closeEpisode u c reason _ hu) s hs

theorem applyCommit (s : State) (atBoundary : Bool) (stamp : Stamp) (hs : P s) : P (s.applyCommit atBoundary stamp) := by
  have taken : P ((((State.offer { s with store := { s.store with active := s.store.staged, commitPending := false } } none
      stamp (.configApplied atBoundary)).commitRanges s.store.active s.store.staged).commitUnits s.store.active
      s.store.staged).commitGuard s.store.active s.store.staged) :=
    k.quiet _ _ (by simp) (by simp [State.commitRanges]) (by simp [State.commitUnits]) (by simp [Store.applied]) (by simp)
      (by simp) (k.commit s hs)
  unfold State.applyCommit State.commitCheck
  dsimp only
  split
  · split
    · exact k.cut _ _ _ taken
    · exact taken
  · exact taken

theorem commitAtOnce (s : State) (stamp : Stamp) (hs : P s) : P (s.commitAtOnce stamp) :=
  k.quiet (s.applyCommit false stamp) _ rfl rfl rfl rfl rfl rfl (k.applyCommit s false stamp hs)

theorem closeInterval (s : State) (iv : Interval) (cause : CloseCause) (hs : P s) : P (s.closeInterval iv cause) :=
  k.quiet s _ (by simp) (by simp) (by simp) (by simp) (by simp) (by simp) hs

theorem openInterval (pick : Nat → Nat) (s : State) (clamps : Quad Nat) (applied : Bool) (hs : P s) :
    P (s.openInterval pick clamps applied) :=
  k.closeEach _ pick _ _ _ (k.quiet s _ rfl rfl rfl rfl rfl rfl hs)

theorem enterHeld (pick : Nat → Nat) (s : State) (closed : Option Nat) (hs : P s) : P (s.enterHeld pick closed) := by
  have closedAll (u : State) (hu : P u) := k.closeEach u pick u.openEpisodes .limitRemoved (·.handed.report.ended) hu
  unfold State.enterHeld
  dsimp only
  split
  · exact k.commitAtOnce _ _ (closedAll _ (k.offer _ _ _ _ (k.quiet s _ rfl rfl rfl rfl rfl rfl hs)))
  · exact closedAll _ (k.offer _ _ _ _ (k.quiet s _ rfl rfl rfl rfl rfl rfl hs))

theorem enterMeasuring (pick : Nat → Nat) (s : State) (hs : P s) : P (s.enterMeasuring pick) := by
  unfold State.enterMeasuring
  dsimp only
  split
  · exact k.openInterval _ _ _ _ (k.applyCommit _ _ _ hs)
  · exact k.openInterval _ _ _ _ hs

theorem boundaryStep (pick : Nat → Nat) (s : State) (hs : P s) : P (s.boundaryStep pick) := by
  unfold State.boundaryStep State.openingBoundary
  dsimp only
  split
  · split
    · split
      · exact k.enterHeld _ _ _ (k.closeInterval _ _ _ hs)
      · exact k.enterMeasuring _ _ (k.closeInterval _ _ _ hs)
    · exact hs
  · split
    · split
      · split
        · exact k.enterHeld _ _ _ (k.quiet s _ rfl rfl rfl rfl rfl rfl hs)
        · exact k.enterHeld _ _ _ hs
      · exact k.enterMeasuring _ _ hs
    · split
      · exact k.quiet s _ rfl rfl rfl rfl rfl rfl hs
      · exact hs

/-- A stall ends episodes and a check, after the port has entered STALLED. -/
theorem enterStalled (stalled : ∀ s, P s → P { s with port := { s.port with stalled := true } }) (pick : Nat → Nat)
    (s : State) (hs : P s) : P (s.enterStalled pick) := by
  refine eachFreely_keeps P pick _ _ (fun u _ hu => k.quiet u _ rfl rfl rfl rfl rfl rfl hu) (fun x _ u hu => ?_) _ ?_
  · cases x with
    | closeEpisode c => exact k.closeEpisode _ _ _ _ hu
    | endCheck => exact k.cut _ _ _ hu
  · exact k.markGap _ (k.offer _ none s.clock.now (.inputStalled s.port.frameCounter) (stalled s hs))

theorem resetOffers (pick : Nat → Nat) (s : State) (hs : P s) : P (s.resetOffers pick) :=
  k.cut _ _ _ (k.quiet _ _ (by simp) (by simp) (by simp) (by simp) (by simp) (by simp)
    (k.closeEach s pick s.openEpisodes .reset (·.clock.now) hs))

theorem withoutChoosing (f : State → State) (keeps : ∀ u, P u → P (f u)) (s : State) (hs : P s) :
    P (s.withoutChoosing f) :=
  k.quiet (f s.engaged) _ (by simp) (by simp) (by simp) (by simp) (by simp) (by simp)
    (keeps _ (k.quiet s _ rfl rfl rfl rfl rfl rfl hs))

/-- A soft reset restarts the units after a check has ended. -/
theorem softResetRule (reset : ∀ s, P s → P s.resetUnits) (body : List Byte) (s : State) (hs : P s) :
    P (softResetRule Config.pick body s).state := by
  rw [softResetRule_state]
  exact reset _ (k.withoutChoosing _ (k.resetOffers Config.pick) _ (k.quiet s _ rfl rfl rfl rfl rfl rfl hs))

end MeterKept

/-! ### The freeze (R15) -/

section Frozen
variable (r : RangeCtl) (set : RangeSettings) (codes : GainCodes)

@[simp] theorem RangeCtl.step_frozen (g : Nat) : (r.step set codes g).frozen = r.frozen := rfl

@[simp] theorem RangeCtl.windowDecision_frozen : (r.windowDecision set codes).frozen = r.frozen := by
  unfold RangeCtl.windowDecision
  repeat' split
  all_goals rfl

@[simp] theorem RangeCtl.blockEnd_frozen : (r.blockEnd set codes).frozen = r.frozen := by
  unfold RangeCtl.blockEnd RangeCtl.endWindow
  dsimp only
  split
  · rfl
  · split
    · exact RangeCtl.windowDecision_frozen ..
    · rfl

@[simp] theorem RangeCtl.sample_frozen (x : Int) : (r.sample set codes x).frozen = r.frozen := by
  unfold RangeCtl.sample
  dsimp only
  repeat' split
  all_goals rfl

@[simp] theorem RangeCtl.commit_frozen (old : RangeSettings) : (r.commit old set codes).frozen = r.frozen := by
  unfold RangeCtl.commit
  dsimp only
  repeat' split
  all_goals rfl

end Frozen

/-! ### The running check -/

theorem CheckEngine.on_idle {e : CheckEngine} (h : e.phase = .idle) (c : Chan) : e.on c = none := by
  unfold CheckEngine.on; rw [h]

theorem CheckEngine.on_running {e : CheckEngine} {p : CheckParams} (running : e.phase ≠ .idle) (h : e.params = some p)
    (c : Chan) : e.on c = if p.chan = c then some p else none := by
  unfold CheckEngine.on
  rw [h]
  cases phase : e.phase with
  | idle => exact absurd phase running
  | settling => rfl
  | collecting => rfl

/-- A check's parameters, counter and sum exist only while it runs, and the range controller of its channel alone is frozen. -/
structure CheckEngine.Held (e : CheckEngine) (range : Quad RangeCtl) : Prop where
  params : e.params.isSome = true ↔ e.phase ≠ .idle
  idle : e.phase = .idle → e.counter = 0 ∧ e.sum = 0
  counter : e.phase = .settling → e.counter < 1000
  frozen : ∀ c, (range.get c).frozen = (e.on c).isSome

theorem checkHeld_iff (s : State) : CheckHeld s ↔ s.check.Held s.range :=
  ⟨fun h => ⟨h.params, h.idle, h.counter, h.frozen⟩, fun h => ⟨h.params, h.idle, h.counter, h.frozen⟩⟩

namespace CheckEngine.Held

variable {e : CheckEngine} {range : Quad RangeCtl} (h : e.Held range)
include h

/-- The range controllers move on, each with its freeze. -/
theorem moveOn {range' : Quad RangeCtl} (same : ∀ c, (range'.get c).frozen = (range.get c).frozen) : e.Held range' :=
  ⟨h.params, h.idle, h.counter, fun c => (same c).trans (h.frozen c)⟩

theorem set {c : Chan} {r : RangeCtl} (same : r.frozen = (range.get c).frozen) : e.Held (range.set c r) :=
  h.moveOn fun d => by
    rw [Quad.get_set]
    split
    next same' => rw [same', same]
    next => rfl

/-- The engine counts on with the same check. -/
theorem count {e' : CheckEngine} (running : e.phase ≠ .idle) (running' : e'.phase ≠ .idle) (params : e'.params = e.params)
    (counter : e'.phase = .settling → e'.counter < 1000) : e'.Held range := by
  obtain ⟨p, hp⟩ := Option.isSome_iff_exists.1 (h.params.2 running)
  refine ⟨⟨fun _ => running', fun _ => by rw [params, hp]; rfl⟩, fun idle => absurd idle running', counter, fun c => ?_⟩
  rw [h.frozen, on_running running hp, on_running running' (params.trans hp)]

/-- The end of a check lifts the freeze of its channel. -/
theorem ends {p : CheckParams} (running : e.phase ≠ .idle) (hp : e.params = some p) (last : Option CheckRecord) :
    (⟨.idle, none, 0, 0, last⟩ : CheckEngine).Held (range.set p.chan (range.get p.chan).thaw) := by
  refine ⟨by simp, fun _ => ⟨rfl, rfl⟩, (nomatch ·), fun c => ?_⟩
  rw [on_idle rfl, Quad.get_set]
  split
  next => rfl
  next other => rw [h.frozen, on_running running hp, if_neg (Ne.symm other)]

/-- The beginning of a check freezes its channel. -/
theorem begins (idle : e.phase = .idle) (p : CheckParams) :
    ({ e with phase := .settling, params := some p, counter := 0, sum := 0 } : CheckEngine).Held
      (range.set p.chan (range.get p.chan).freeze) := by
  refine ⟨by simp, (nomatch ·), fun _ => Nat.succ_pos _, fun c => ?_⟩
  rw [on_running (p := p) (by simp) rfl, Quad.get_set]
  split
  next same => rw [if_pos same.symm]; rfl
  next other => rw [if_neg (Ne.symm other), h.frozen, on_idle idle]

end CheckEngine.Held

theorem endCheck_held {s : State} (h : s.check.Held s.range) (e : Ending) (counted : Nat) (stamp : Stamp) :
    (s.endCheck e counted stamp).check.Held (s.endCheck e counted stamp).range := by
  unfold State.endCheck
  split
  next => exact h
  next => exact h
  next p hp running =>
    dsimp only
    rw [offer_check, offer_range, adjustK_range]
    exact h.ends running hp _

theorem engineStep_held {s : State} (h : s.check.Held s.range) : s.engineStep.check.Held s.engineStep.range := by
  unfold State.engineStep
  split
  next => exact endCheck_held h ..
  next kind =>
    unfold State.checkStepKind at kind
    repeat' split at kind
    all_goals try cases kind
    next p settling _ _ short =>
      refine h.count (by rw [settling]; simp) (by dsimp only; rw [settling]; simp) rfl fun _ => ?_
      exact not_le.1 short
  next kind =>
    unfold State.checkStepKind at kind
    repeat' split at kind
    all_goals try cases kind
    next p settling _ _ _ => exact h.count (by rw [settling]; simp) (by simp) rfl (nomatch ·)
  next kind _ =>
    unfold State.checkStepKind at kind
    repeat' split at kind
    all_goals try cases kind
    next p collecting _ _ _ =>
      refine h.count (by rw [collecting]; simp) (by dsimp only; rw [collecting]; simp) rfl fun settling => ?_
      dsimp only at settling
      rw [collecting] at settling
      cases settling
  next => exact endCheck_held h ..
  next => exact h

theorem check_meterKept : MeterKept fun s => s.check.Held s.range where
  quiet _ _ _ range _ _ check _ h := by rw [range, check]; exact h
  cut _ _ _ h := endCheck_held h ..
  commit _ h := h.moveOn fun c => by simp [State.commitUnits, State.commitRanges]

theorem sampleChannel_range (s : State) (c : Chan) (x : Int) :
    (s.sampleChannel c x).range =
      s.range.set c ((s.range.get c).sample (s.active.range.get c) (s.active.codes.get c) x) := rfl

theorem check_keptBy (i : Instr) : KeptBy (fun s => s.check.Held s.range) (fun s => s.check.Held s.range) i := by
  have k := check_meterKept
  have block : BlockKept fun s => s.check.Held s.range := {
    range := fun s c h => h.set (RangeCtl.blockEnd_frozen ..)
    weigh := fun s c h => h.set rfl
    engine := fun s h => engineStep_held h
    boundary := k.boundaryStep Config.pick }
  have rules : RuleKept (fun s => s.check.Held s.range) i := {
    softReset := fun s body => k.softResetRule (fun s h => h.moveOn fun c => by
      simp [State.resetUnits, RangeCtl.restartWindow]) body s
    commitNow := fun s _ _ => k.commitAtOnce s _
    startCheck := fun s _ p _ idle _ h => by
      have began := h.begins idle p
      unfold State.beginCheck
      simpa using began
    abortCheck := fun s h => k.cut s _ _ h }
  exact {
    powerOn := fun _ _ _ _ _ => ⟨by simp [powerOnState, State.reset], fun _ => ⟨rfl, rfl⟩, (nomatch ·), fun c => by cases c <;> rfl⟩
    finish := block.finish
    upTo := block.upTo
    frame := fun s gap x1 x2 x3 x4 act _ _ h => by
      have sampled (u : State) (c : Chan) (x : Int) (hu : u.check.Held u.range) :
          (u.sampleChannel c x).check.Held (u.sampleChannel c x).range := hu.set (RangeCtl.sample_frozen ..)
      have counted (u : State) (hu : u.check.Held u.range) : u.countFrame.check.Held u.countFrame.range := by
        unfold State.countFrame; split <;> exact hu
      have start : ((s.resumeInput gap).sampleAct act).check.Held ((s.resumeInput gap).sampleAct act).range := by
        rw [resumeInput_frame]; unfold State.sampleAct; split <;> exact h
      exact counted _ (sampled _ _ _ (sampled _ _ _ (sampled _ _ _ (sampled _ _ _ start))))
    stall := fun s _ _ => k.enterStalled (fun _ h => h) _ s
    rule := RuleKept.send rules fun s kind tag body h => by rw [reply_frame]; exact h }

/-- Settles O12: the roles are kept by the capture controller's moves, and the freeze goes with the check. -/
theorem rolesAndCheckHeldByStep : Obligations.RolesAndCheckHeldByStep := by
  intro s t next
  rw [checkHeld_iff, checkHeld_iff]
  exact ⟨fun h => step_keeps (P := fun u => u.capture.RolesKept) (fun _ _ hs => hs) rolesKept.keptBy h next,
    fun h => step_keeps (P := fun u => u.check.Held u.range) (fun _ _ hs => hs) check_keptBy h next⟩

end Sys2Proof.Machine
end

section
/-! PROOFS. The range controllers (chapter 1, section 1.3): what a sample, a block end and a commit do to one, and that it keeps
within its active settings. -/

namespace Sys2Proof.Machine

/-- The constraints of range settings that a controller's ranges need (R18). -/
structure RangeSettings.Proper (set : RangeSettings) : Prop where
  range : set.gMin ≤ set.gMax
  window : 10 ≤ set.window

theorem RangeSettings.proper {set : RangeSettings} (valid : set.valid = true) : set.Proper := by
  simp only [RangeSettings.valid, Bool.and_eq_true, decide_eq_true_eq] at valid
  exact ⟨valid.1.1.1.1.1.1.1.1.1, valid.1.1.1.1.2⟩

/-! ### A controller keeps within its settings -/

namespace RangeCtl.Held

variable {set : RangeSettings} {codes : GainCodes} {r : RangeCtl}

theorem restartWindow (h : r.Held set codes) (window : 0 < set.window) : r.restartWindow.Held set codes :=
  ⟨h.gainLow, h.gainHigh, h.lines, h.holdOff, h.settling, window, Nat.zero_le _, fun _ => ⟨rfl, rfl⟩⟩

theorem freeze (h : r.Held set codes) (window : 0 < set.window) : r.freeze.Held set codes :=
  ⟨h.gainLow, h.gainHigh, h.lines, h.holdOff, h.settling, window, Nat.zero_le _, fun _ => ⟨rfl, rfl⟩⟩

theorem thaw (h : r.Held set codes) : r.thaw.Held set codes :=
  ⟨h.gainLow, h.gainHigh, h.lines, h.holdOff, h.settling, h.window, h.peak, (nomatch ·)⟩

theorem clearSummary (h : r.Held set codes) : r.clearSummary.Held set codes :=
  ⟨h.gainLow, h.gainHigh, h.lines, h.holdOff, h.settling, h.window, h.peak, h.frozenWindow⟩

/-- A gain change to a step of the range (R14). -/
theorem step {g : Nat} (low : set.gMin ≤ g) (high : g ≤ set.gMax) (window : 0 < set.window) :
    (r.step set codes g).Held set codes :=
  ⟨low, high, rfl, le_rfl, le_rfl, window, Nat.zero_le _, fun _ => ⟨rfl, rfl⟩⟩

theorem countHoldOff (h : r.Held set codes) : r.countHoldOff.Held set codes :=
  ⟨h.gainLow, h.gainHigh, h.lines, (Nat.sub_le ..).trans h.holdOff, h.settling, h.window, h.peak, h.frozenWindow⟩

theorem windowDecision (h : r.Held set codes) (window : 0 < set.window) : (r.windowDecision set codes).Held set codes := by
  have low := h.gainLow
  have high := h.gainHigh
  unfold RangeCtl.windowDecision
  split
  · exact h
  · split
    next down => exact step (by omega) (by omega) window
    next =>
      split
      next up => exact step (by omega) (by omega) window
      next => exact h

theorem blockEnd (h : r.Held set codes) (window : 0 < set.window) : (r.blockEnd set codes).Held set codes := by
  unfold RangeCtl.blockEnd
  dsimp only
  split
  next => exact h.countHoldOff
  next running =>
    split
    next => exact (h.countHoldOff.windowDecision window).restartWindow window
    next goesOn =>
      have short : r.windowCounter + 1 < set.window := by
        have running : r.frozen = false := Bool.eq_false_iff.2 running
        simpa [RangeCtl.windowEnds, running, RangeCtl.countHoldOff] using goesOn
      exact { h.countHoldOff with window := short, frozenWindow := fun frozen => absurd frozen running }

theorem sample (h : r.Held set codes) (window : 0 < set.window) {x : Int} (small : x.natAbs ≤ 8388608) :
    (r.sample set codes x).Held set codes := by
  have low := h.gainLow
  have high := h.gainHigh
  unfold RangeCtl.sample
  dsimp only
  split
  next => exact { h with settling := (Nat.sub_le ..).trans h.settling }
  next =>
    split
    next => exact { h with }
    next running =>
      split
      next down =>
        have down : set.gMin < r.gain := by
          simp only [RangeCtl.stepsAtOnce, Bool.and_eq_true, decide_eq_true_eq] at down
          exact down.2
        exact step (by omega) (by omega) window
      next => exact { h with peak := max_le h.peak small, frozenWindow := fun frozen => absurd frozen running }

end RangeCtl.Held

/-! ### A commit (R16) -/

section Commit
variable {old new : RangeSettings} {codes newCodes : GainCodes} {r : RangeCtl}

/-- A gain step that a clamp gives: all that a gain change sets but the count (R14, R16). -/
def RangeCtl.clampedTo (set : RangeSettings) (codes : GainCodes) (g : Nat) (r : RangeCtl) : RangeCtl :=
  { r with
    gain := g, lines := codes.code g, settling := set.settle, holdOff := set.holdOff, windowCounter := 0
    windowPeak := 0 }

theorem RangeCtl.commit_of_clamp (g : Nat) (clamp : clampGain new r.gain = g) (moved : g ≠ r.gain) :
    r.commit old new newCodes = r.clampedTo new newCodes g := by
  subst clamp
  unfold RangeCtl.commit RangeCtl.clampedTo
  dsimp only
  rw [if_pos moved]
  split
  · simp [RangeCtl.changeTo, RangeCtl.restartWindow]
  · rfl

theorem RangeCtl.commit_of_within (low : new.gMin ≤ r.gain) (high : r.gain ≤ new.gMax) :
    r.commit old new newCodes =
      { r with
        lines := newCodes.code r.gain
        settling :=
          if newCodes.code r.gain ≠ r.lines then new.settle
          else if old = new then r.settling else min r.settling new.settle
        holdOff := if old = new then r.holdOff else min r.holdOff new.holdOff
        windowCounter := if old = new then r.windowCounter else 0
        windowPeak := if old = new then r.windowPeak else 0 } := by
  have stays : clampGain new r.gain = r.gain := by unfold clampGain; omega
  unfold RangeCtl.commit
  dsimp only
  rw [stays, if_neg (not_not_intro rfl)]
  by_cases code : newCodes.code r.gain = r.lines
  · rw [if_neg (not_not_intro code), if_neg (not_not_intro code), ← code.symm]
    split
    next differ => simp only [RangeCtl.restartWindow, min_comm]
    next same => simp only [if_pos (not_not.1 same)]
  · rw [if_pos code, if_pos code]
    split
    next differ => simp only [RangeCtl.restartWindow, min_self, min_comm]
    next same => simp only [if_pos (not_not.1 same)]

theorem RangeCtl.clampCount_of_within (low : new.gMin ≤ r.gain) (high : r.gain ≤ new.gMax) : r.clampCount new = 0 := by
  unfold RangeCtl.clampCount clampGain; omega

/-- A commit leaves a controller within the new settings (R16). -/
theorem RangeCtl.Held.commit (h : r.Held old codes) (proper : new.Proper) : (r.commit old new newCodes).Held new newCodes := by
  have window : 0 < new.window := (Nat.succ_pos 9).trans_le proper.window
  have range := proper.range
  by_cases within : new.gMin ≤ r.gain ∧ r.gain ≤ new.gMax
  · rw [RangeCtl.commit_of_within within.1 within.2]
    by_cases same : old = new
    · subst same
      refine ⟨within.1, within.2, rfl, ?_, ?_, ?_, ?_, ?_⟩ <;> simp only [if_true]
      · exact h.holdOff
      · split
        · exact le_rfl
        · exact h.settling
      · exact h.window
      · exact h.peak
      · exact h.frozenWindow
    · refine ⟨within.1, within.2, rfl, ?_, ?_, ?_, ?_, ?_⟩ <;> simp only [if_neg same]
      · exact min_le_right ..
      · split
        · exact le_rfl
        · exact min_le_right ..
      · exact window
      · exact Nat.zero_le _
      · exact fun _ => ⟨trivial, trivial⟩
  · rw [RangeCtl.commit_of_clamp _ rfl (by unfold clampGain; omega)]
    refine ⟨?_, ?_, rfl, le_rfl, le_rfl, window, Nat.zero_le _, fun _ => ⟨rfl, rfl⟩⟩ <;>
      simp only [RangeCtl.clampedTo, clampGain] <;> omega

end Commit

/-- Settles O25: by where the gain step stands to the new range. -/
theorem commitClampsRangeController : Obligations.CommitClampsRangeController := by
  intro old new oldCodes newCodes r valid h r' clamped
  have proper := RangeSettings.proper valid
  have range := proper.range
  refine ⟨h.commit proper, fun low high => ⟨RangeCtl.clampCount_of_within low high, RangeCtl.commit_of_within low high⟩,
    fun low => ⟨RangeCtl.commit_of_clamp _ (by unfold clampGain; omega) (by omega), ?_⟩,
    fun high => ⟨RangeCtl.commit_of_clamp _ (by unfold clampGain; omega) (by omega), ?_⟩, ?_⟩
  · unfold RangeCtl.clampCount clampGain; omega
  · unfold RangeCtl.clampCount clampGain; omega
  · rintro rfl rfl
    have same := RangeCtl.commit_of_within (old := old) (newCodes := oldCodes) h.gainLow h.gainHigh
    rw [← h.lines] at same
    simpa using same

/-! ### Every step keeps the range controllers within their settings -/

theorem sample_natAbs (x : Sample) : x.toInt.natAbs ≤ 8388608 := by
  have low := BitVec.le_toInt x
  have high := BitVec.toInt_lt (x := x)
  omega

/-- The range controllers of a quad within the settings of a copy of the store. -/
def RangesWithin (set : Settings) (range : Quad RangeCtl) : Prop :=
  ∀ c, (range.get c).Held (set.range.get c) (set.codes.get c)

namespace RangesWithin

variable {set : Settings} {range : Quad RangeCtl} (h : RangesWithin set range)
include h

theorem set_ {c : Chan} {r : RangeCtl} (held : r.Held (set.range.get c) (set.codes.get c)) :
    RangesWithin set (range.set c r) := fun d => by
  rw [Quad.get_set]
  split
  next same => rw [same]; exact held
  next => exact h d

theorem mapWith {f : Chan → RangeCtl → RangeCtl}
    (held : ∀ c r, r.Held (set.range.get c) (set.codes.get c) → (f c r).Held (set.range.get c) (set.codes.get c)) :
    RangesWithin set (range.mapWith f) := fun c => by
  rw [Quad.get_mapWith]; exact held c _ (h c)

end RangesWithin

/-- The store is legal and the range controllers keep within the active copy. -/
def RangesKept (store : Store) (range : Quad RangeCtl) : Prop := store.Legal ∧ RangesWithin store.active range

theorem Settings.Legal.window {set : Settings} (legal : set.Legal) (c : Chan) : 0 < (set.range.get c).window :=
  (Nat.succ_pos 9).trans_le (RangeSettings.proper (legal.range c)).window

theorem reset_rangesKept : RangesKept State.reset.store State.reset.range := by
  refine ⟨⟨Settings.default_legal, Settings.default_legal⟩, fun c => ?_⟩
  cases c <;> exact ⟨by decide, by decide, by decide, by decide, by decide, by decide, by decide, by decide⟩

/-- A check's end changes no controller but its channel's, whose freeze it lifts. -/
theorem endCheck_range (s : State) (e : Ending) (counted : Nat) (stamp : Stamp) :
    (s.endCheck e counted stamp).range = s.range ∨
      ∃ c, (s.endCheck e counted stamp).range = s.range.set c (s.range.get c).thaw := by
  unfold State.endCheck
  split
  · exact .inl rfl
  · exact .inl rfl
  next p _ _ => exact .inr ⟨p.chan, by dsimp only; rw [offer_range, adjustK_range]; rfl⟩

theorem engineStep_range (s : State) :
    s.engineStep.range = s.range ∨ ∃ c, s.engineStep.range = s.range.set c (s.range.get c).thaw := by
  unfold State.engineStep
  split
  · exact endCheck_range ..
  · exact .inl rfl
  · exact .inl rfl
  · exact .inl rfl
  · exact endCheck_range ..
  · exact .inl rfl

theorem RangesWithin.thawed {set : Settings} {range range' : Quad RangeCtl} (h : RangesWithin set range)
    (thawed : range' = range ∨ ∃ c, range' = range.set c (range.get c).thaw) : RangesWithin set range' := by
  obtain rfl | ⟨c, rfl⟩ := thawed
  · exact h
  · exact h.set_ (h c).thaw

theorem ranges_meterKept : MeterKept fun s => RangesKept s.store s.range where
  quiet _ _ _ range _ store _ _ h := by rw [store, range]; exact h
  cut s result stamp h := by
    rw [cutCheck_store]
    exact ⟨h.1, h.2.thawed (endCheck_range ..)⟩
  commit s h := ⟨h.1.applied, fun c => by
    simp only [State.commitUnits, State.commitRanges, Quad.get_mapWith, Store.applied]
    exact (h.2 c).commit (RangeSettings.proper (h.1.1.range c))⟩

theorem ranges_keptBy (i : Instr) : KeptBy (fun s => RangesKept s.store s.range) (fun s => RangesKept s.store s.range) i := by
  have k := ranges_meterKept
  have block : BlockKept fun s => RangesKept s.store s.range := {
    range := fun s c h => ⟨h.1, h.2.set_ ((h.2 c).blockEnd (h.1.2.window c))⟩
    weigh := fun s c h => ⟨h.1, h.2.set_ (h.2 c).clearSummary⟩
    engine := fun s h => by
      have range := h.2.thawed (engineStep_range s)
      obtain e | ⟨c, k, -, low, high, e⟩ := engineStep_store s <;> rw [e]
      exacts [⟨h.1, range⟩, ⟨h.1.withStagedK c low high, range⟩]
    boundary := k.boundaryStep Config.pick }
  have rules : RuleKept (fun s => RangesKept s.store s.range) i := {
    softReset := fun s body => k.softResetRule
      (fun u h => ⟨h.1.revert, h.2.mapWith fun c r held => held.restartWindow (h.1.2.window c)⟩) body s
    edit := fun s x legal _ h => ⟨⟨legal h.1.1, h.1.2⟩, h.2⟩
    commitNow := fun s _ _ => k.commitAtOnce s _
    discard := fun s h => ⟨h.1.revert, h.2⟩
    startCheck := fun s _ p _ idle _ h => by
      have frozen : RangesKept s.store (s.range.set p.chan (s.range.get p.chan).freeze) :=
        ⟨h.1, h.2.set_ ((h.2 p.chan).freeze (h.1.2.window _))⟩
      unfold State.beginCheck
      simpa using frozen
    abortCheck := fun s h => k.cut s _ _ h }
  exact {
    powerOn := fun _ _ _ _ _ => reset_rangesKept
    finish := block.finish
    upTo := block.upTo
    frame := fun s gap x1 x2 x3 x4 act _ _ h => by
      have sampled (u : State) (c : Chan) (x : Sample) (hu : RangesKept u.store u.range) :
          RangesKept (u.sampleChannel c x.toInt).store (u.sampleChannel c x.toInt).range :=
        ⟨hu.1, hu.2.set_ ((hu.2 c).sample (hu.1.2.window c) (sample_natAbs x))⟩
      have counted (u : State) (hu : RangesKept u.store u.range) : RangesKept u.countFrame.store u.countFrame.range := by
        unfold State.countFrame; split <;> exact hu
      have start : RangesKept ((s.resumeInput gap).sampleAct act).store ((s.resumeInput gap).sampleAct act).range := by
        rw [resumeInput_frame]; unfold State.sampleAct; split <;> exact h
      exact counted _ (sampled _ _ _ (sampled _ _ _ (sampled _ _ _ (sampled _ _ _ start))))
    stall := fun s _ _ => k.enterStalled (fun _ h => h) _ s
    rule := RuleKept.send rules fun s kind tag body h => by rw [reply_frame]; exact h }

/-- Settles O8: each gain change stays in the range, and a commit brings the controllers into the new settings. -/
theorem rangesHeldByStep : Obligations.RangesHeldByStep := by
  intro s t held h
  exact step_keeps (P := fun u => RangesKept u.store u.range) (fun _ _ hs => hs) ranges_keptBy held h

end Sys2Proof.Machine
end

section
/-! PROOFS. The sample port (chapter 1): what a frame does to the port, the range controllers and the units (R1, R6, R11, R22 to
R24, R30 to R32), and the events a busy transmitter keeps (R162, R163). -/

namespace Sys2Proof.Machine

/-! ### Events behind a busy transmitter -/

theorem number_pred_lt (c : Chan) : c.number - 1 < 4 := by cases c <;> decide

/-- Events that the queue takes, with all masks open, pass (R162). -/
theorem TakesEvents.passes {q : ReportQueue} {n : Nat} (h : TakesEvents q n) (c : Option Chan) (body : EventBody) :
    q.passes c body = true := by
  obtain ⟨-, -, kinds, chans⟩ := h
  rw [passes_iff, kinds, chans]
  refine ⟨?_, fun d _ => ?_⟩
  · rw [BitVec.getLsbD_allOnes]; cases body <;> simp [EventBody.kindCode]
  · rw [BitVec.getLsbD_allOnes, decide_eq_true_eq]; exact number_pred_lt d

/-- Such an event becomes the newest notice, and nothing else happens (R162, R163). -/
theorem offer_of_takes {s : State} {n : Nat} (h : TakesEvents s.report (n + 1)) (c : Option Chan) (stamp : Stamp)
    (body : EventBody) :
    s.offer c stamp body = { s with report := { s.report with events := s.report.events ++ [⟨c, stamp, body⟩] } } ∧
      TakesEvents (s.offer c stamp body).report n := by
  have passes := h.passes c body
  obtain ⟨busy, room, kinds, chans⟩ := h
  obtain ⟨m, sending⟩ := Option.isSome_iff_exists.1 busy
  have enter : s.report.enqueue ⟨c, stamp, body⟩ = { s.report with events := s.report.events ++ [⟨c, stamp, body⟩] } :=
    if_pos (by omega)
  rw [offer_sending s c stamp body m passes sending, enter]
  refine ⟨rfl, busy, ?_, kinds, chans⟩
  dsimp only
  rw [List.length_append, List.length_singleton]
  omega

theorem offer_events {s : State} {n : Nat} (h : TakesEvents s.report (n + 1)) (c : Option Chan) (stamp : Stamp)
    (body : EventBody) : (s.offer c stamp body).report.events = s.report.events ++ [⟨c, stamp, body⟩] := by
  rw [(offer_of_takes h c stamp body).1]

/-! ### The range controller (R2, R10, R11, R14) -/

/-- Settles O21: by the cases of the sample step. -/
theorem sampleMovesRangeController : Obligations.SampleMovesRangeController := by
  intro set codes x r mark
  have overload : (r.overload || isOverload x) = mark := rfl
  unfold RangeCtl.sample RangeCtl.isSettling RangeCtl.stepsAtOnce
  dsimp only
  rw [overload]
  refine ⟨fun settling => ?_, fun settled frozen => ?_, fun settled running above expired high => ?_,
    fun settled running stays => ?_⟩
  · rw [if_pos (by simpa using settling)]
  · rw [if_neg (by simp [settled]), if_pos frozen]
  · rw [if_neg (by simp [settled]), if_neg (by simp [running]), if_pos (by simp [above, expired, high])]
    rfl
  · rw [if_neg (by simp [settled]), if_neg (by simp [running]), if_neg]
    simp only [Bool.and_eq_true, decide_eq_true_eq]
    omega

/-! ### A frame -/

/-- The unit of a channel after a sample. -/
def State.takenUnit (s : State) (c : Chan) (x : Int) : WeightUnit :=
  (s.unit.get c).take (s.active.mainFilter c) (s.active.peakFilter c) (s.check.internalOn c).isSome (s.unitSample c x) x

/-- The range controller of a channel after a sample. -/
def State.takenRange (s : State) (c : Chan) (x : Int) : RangeCtl :=
  (s.range.get c).sample (s.active.range.get c) (s.active.codes.get c) x

theorem sampleChannel_eq (s : State) (c : Chan) (x : Int) :
    s.sampleChannel c x = (s.setUnit c (s.takenUnit c x)).setRange c (s.takenRange c x) := rfl

/-- The sample of one channel is no business of another. -/
theorem takenUnit_other (s : State) {c d : Chan} (x y : Int) (h : d ≠ c) :
    (s.sampleChannel c x).takenUnit d y = s.takenUnit d y := by
  simp [sampleChannel_eq, State.takenUnit, State.unitSample, State.unitInput, h]

theorem takenRange_other (s : State) {c d : Chan} (x y : Int) (h : d ≠ c) :
    (s.sampleChannel c x).takenRange d y = s.takenRange d y := by
  simp [sampleChannel_eq, State.takenRange, h]

/-- The four channels take their samples. -/
def State.takeSamples (s : State) (x1 x2 x3 x4 : Sample) : State :=
  (((s.sampleChannel .ch1 x1.toInt).sampleChannel .ch2 x2.toInt).sampleChannel .ch3 x3.toInt).sampleChannel .ch4 x4.toInt

theorem handleFrame_eq (s : State) (x1 x2 x3 x4 : Sample) (act : Bool) :
    s.handleFrame x1 x2 x3 x4 act = ((s.sampleAct act).takeSamples x1 x2 x3 x4).countFrame := rfl

theorem sampleChannel_unit_get (s : State) (c d : Chan) (x : Int) :
    (s.sampleChannel c x).unit.get d = if d = c then s.takenUnit c x else s.unit.get d := by
  rw [sampleChannel_eq]; exact Quad.get_set ..

theorem sampleChannel_range_get (s : State) (c d : Chan) (x : Int) :
    (s.sampleChannel c x).range.get d = if d = c then s.takenRange c x else s.range.get d := by
  rw [sampleChannel_eq]; exact Quad.get_set ..

theorem takeSamples_unit (s : State) (x1 x2 x3 x4 : Sample) (c : Chan) :
    (s.takeSamples x1 x2 x3 x4).unit.get c = s.takenUnit c (frameSample x1 x2 x3 x4 c).toInt := by
  unfold State.takeSamples
  cases c <;> simp only [sampleChannel_unit_get, takenUnit_other, reduceIte, frameSample, ne_eq, reduceCtorEq,
    not_false_eq_true]

theorem takeSamples_range (s : State) (x1 x2 x3 x4 : Sample) (c : Chan) :
    (s.takeSamples x1 x2 x3 x4).range.get c = s.takenRange c (frameSample x1 x2 x3 x4 c).toInt := by
  unfold State.takeSamples
  cases c <;> simp only [sampleChannel_range_get, takenRange_other, reduceIte, frameSample, ne_eq, reduceCtorEq,
    not_false_eq_true]

section Frame
variable (s : State) (x1 x2 x3 x4 : Sample) (act : Bool) (c : Chan)

theorem sampleAct_eq :
    s.sampleAct act =
      { s with port := { s.port with actSample := if s.port.frameCounter = 0 then act else s.port.actSample } } := by
  unfold State.sampleAct
  split <;> rfl

theorem countFrame_eq :
    s.countFrame =
      { s with
        port := { s.port with frameCounter := if s.port.frameCounter < 47 then s.port.frameCounter + 1 else 0 }
        blockWork := if s.port.frameCounter < 47 then s.blockWork else some allTasks } := by
  unfold State.countFrame Config.framesPerBlock
  split
  next h => rw [if_pos (by omega), if_pos (by omega)]
  next h => rw [if_neg (by omega), if_neg (by omega)]

theorem countFrame_unit : s.countFrame.unit = s.unit := by
  rw [countFrame_eq]

theorem countFrame_range : s.countFrame.range = s.range := by
  rw [countFrame_eq]

theorem handleFrame_port :
    (s.handleFrame x1 x2 x3 x4 act).port =
      { s.port with
        frameCounter := if s.port.frameCounter < 47 then s.port.frameCounter + 1 else 0
        actSample := if s.port.frameCounter = 0 then act else s.port.actSample } := by
  rw [handleFrame_eq, countFrame_eq, sampleAct_eq]; rfl

theorem handleFrame_blockWork :
    (s.handleFrame x1 x2 x3 x4 act).blockWork =
      if s.port.frameCounter < 47 then s.blockWork else some allTasks := by
  rw [handleFrame_eq, countFrame_eq, sampleAct_eq]; rfl

theorem handleFrame_unit :
    (s.handleFrame x1 x2 x3 x4 act).unit.get c = s.takenUnit c (frameSample x1 x2 x3 x4 c).toInt := by
  rw [handleFrame_eq, countFrame_unit, takeSamples_unit, sampleAct_eq]; rfl

theorem handleFrame_range :
    (s.handleFrame x1 x2 x3 x4 act).range.get c = s.takenRange c (frameSample x1 x2 x3 x4 c).toInt := by
  rw [handleFrame_eq, countFrame_range, takeSamples_range, sampleAct_eq]; rfl

end Frame

theorem execSampleFrame_of_running {s : State} (x1 x2 x3 x4 : Sample) (act : Bool) (gap : Nat) (none : s.blockWork = none) :
    exec (.sampleFrame x1 x2 x3 x4 act gap) s = .next ((s.resumeInput gap).handleFrame x1 x2 x3 x4 act) := by
  change execSampleFrame x1 x2 x3 x4 act gap s = _
  rw [execSampleFrame, finishBlock_of_none _ s none]

/-- What a completed block end leaves, another completion leaves. -/
theorem finishBlock_finishBlock (pick : Nat → Nat) (s : State) : (s.finishBlock pick).finishBlock pick = s.finishBlock pick :=
  finishBlock_of_none _ _ (finishBlock_blockWork _ s)

/-- Settles O18: each unit takes its sample as it stood before the frame, whatever the other channels do. -/
theorem sampleFrameIsHandled : Obligations.SampleFrameIsHandled := by
  refine ⟨fun x1 x2 x3 x4 act gap s t next => ?_, fun x1 x2 x3 x4 act gap s none running => ?_⟩
  · cases next
    refine ⟨finishBlock_blockWork _ s, ?_⟩
    change execSampleFrame x1 x2 x3 x4 act gap s = execSampleFrame x1 x2 x3 x4 act gap _
    rw [execSampleFrame, execSampleFrame, finishBlock_finishBlock]
  · have resumed : s.resumeInput gap = s := by rw [State.resumeInput, running]; rfl
    refine ⟨_, execSampleFrame_of_running x1 x2 x3 x4 act gap none, ?_⟩
    rw [resumed, handleFrame_port, handleFrame_blockWork, none]
    refine ⟨?_, running, rfl, rfl, rfl, fun c => ⟨handleFrame_range .., s.unitSample c (frameSample x1 x2 x3 x4 c).toInt,
      fun settling => ?_, fun settled outside => ?_, fun settled p inside => ?_, ?_⟩⟩
    · conv_lhs => rw [handleFrame_frame]
      rw [handleFrame_port, handleFrame_blockWork, none]
    · simp [State.unitSample, WeightUnit.normalised, RangeCtl.isSettling, settling]
    · simp [State.unitSample, State.unitInput, WeightUnit.normalised, RangeCtl.isSettling, settled, outside, normalise]
    · simp [State.unitSample, State.unitInput, WeightUnit.normalised, RangeCtl.isSettling, settled, inside, normalise,
        testValue]
    · rw [handleFrame_unit, State.takenUnit, WeightUnit.take]
      cases inside : s.check.internalOn c <;> rfl

/-- Settles O19: the frame is handled as in RUNNING, behind the offer of INPUT_RESUMED. -/
theorem frameResumesStalledInput : Obligations.FrameResumesStalledInput := by
  intro x1 x2 x3 x4 act gap s none stalled resumed
  have resume : s.resumeInput gap =
      State.offer { s with port := { s.port with stalled := false } } .none s.clock.now resumed := by
    rw [State.resumeInput, if_pos stalled]; rfl
  have offered (r : Bool) : State.offer { s with port := { s.port with stalled := r } } .none s.clock.now resumed =
      { s with
        port := { s.port with stalled := r }, report := (s.offer .none s.clock.now resumed).report
        fifo := (s.offer .none s.clock.now resumed).fifo } := by
    unfold State.offer State.transmit
    dsimp only
    split
    · repeat' split
      all_goals rfl
    · rfl
  refine ⟨_, execSampleFrame_of_running x1 x2 x3 x4 act gap none, ?_⟩
  rw [resume, offered]
  refine ⟨⟨_, execSampleFrame_of_running x1 x2 x3 x4 act gap none, ?_⟩, ?_, ?_, ?_, ?_, fun c => ?_, ?_⟩
  · rw [show State.resumeInput { s with port := { s.port with stalled := false } } gap =
      { s with port := { s.port with stalled := false } } from rfl]
    simp only [handleFrame_eq, sampleAct_eq, countFrame_eq]
    rfl
  · rw [handleFrame_port]
  · rw [handleFrame_port]
  · rw [handleFrame_port]
  · rw [handleFrame_blockWork, none]
  · rw [handleFrame_range]; rfl
  · rw [handleFrame_frame]
    refine ⟨rfl, rfl, rfl, rfl, rfl, rfl, fun takes => ?_⟩
    exact congrArg (·.report.events) (offer_of_takes takes .none s.clock.now resumed).1

end Sys2Proof.Machine
end

section
/-! PROOFS. Reset (R7, R8, R9, R21, R55, R72, R101, R123, R127, R147, R160, R172, R174, R175), and the queue of commands
(R176). -/

namespace Sys2Proof.Machine

/-- Settles O1: by what the step takes, what waits in front, and whether the link command is ready. -/
theorem stepTakesFrontCommand : Obligations.StepTakesFrontCommand := by
  refine fun s => ⟨fun c rest front => by rw [step, front], fun quiet => ⟨fun cmd rest queue job room => ?_, fun waits => ?_⟩⟩
  · rw [step_of_quiet quiet, readyCommand_eq queue job room]; rfl
  · rw [step_of_quiet quiet, readyCommand_none waits]

/-- Settles O2: the value of every unit, read off the state a power-on reset leaves. -/
theorem powerOnResetValues : Obligations.PowerOnResetValues := by
  intro rate1 rate0 s
  refine ⟨_, exec_powerOnReset rate1 rate0 s, rfl, rfl, rfl, fun c => Quad.get_same .., fun c => Quad.get_same .., rfl, rfl, rfl,
    rfl, rfl, rfl, rfl, rfl, fun c => Quad.get_same .., rfl, rfl, rfl, rfl, rfl, fun c => ?_, rfl, rfl, fun c => ?_, fun i high => ?_,
    fun c => Quad.get_same .., rfl, rfl, rfl, rfl, rfl, rfl, rfl, rfl, rfl, rfl, rfl, rfl, rfl, rfl, rfl, rfl, rfl, rfl, rfl, rfl,
    fun i low => ?_, fun i low => ?_, rfl, rfl, rfl, ?_, rfl, rfl⟩
  · have m : (powerOnState rate1 rate0 s).monitor.get c = .powerOn := Quad.get_same ..
    rw [m]
    exact ⟨rfl, rfl, rfl, rfl, rfl, rfl, rfl, rfl, rfl, rfl, rfl, rfl, rfl⟩
  · cases c <;> rfl
  · obtain ⟨i, inside⟩ := i
    dsimp only at high
    interval_cases i <;> rfl
  · exact (BitVec.getLsbD_allOnes ..).trans (decide_eq_true low)
  · exact (BitVec.getLsbD_allOnes ..).trans (decide_eq_true low)
  · cases rate1 <;> cases rate0 <;> rfl

/-- Settles O3: both copies are the default settings. -/
theorem powerOnResetSettings : Obligations.PowerOnResetSettings := by
  refine fun rate1 rate0 s => ⟨_, exec_powerOnReset rate1 rate0 s, rfl, fun x copy => ?_⟩
  have default : x = Settings.default := by rcases copy with h | h <;> exact h
  subst default
  refine ⟨rfl, rfl, rfl, rfl, rfl, fun c => Quad.get_same .., fun c => Quad.get_same .., fun c g low => ?_,
    fun w set q sec => ?_, fun i => ?_⟩
  · cases c <;> interval_cases g <;> rfl
  · have flat : w = .flat := by rcases set with h | h | h <;> exact h
    subst flat
    rcases sec with h | h | h <;> exact h
  · simp [Settings.default]

theorem FilterPath.rest_legal : FilterPath.rest.legal := by
  have h : SectionState.rest.legal := by unfold SectionState.legal inSigned32; decide
  exact ⟨h, h, h⟩

theorem reset_unit_held (c : Chan) : (State.reset.unit.get c).Held 0 := by
  rw [show State.reset.unit.get c = ⟨0, .rest, .rest, 0, 0, 0, 0, [], 0, 0, 0, 0⟩ from Quad.get_same ..]
  exact ⟨rfl, by simp, by simp, by simp, by simp, by simp, FilterPath.rest_legal, FilterPath.rest_legal, by simp, by simp, by simp, by simp⟩

theorem reset_unitsHeld : UnitsHeld State.reset where
  counter := by decide
  counterDue _ := rfl
  steps := List.nil_sublist _
  amplitude _ h := nomatch h
  units := reset_unit_held

theorem reset_measurementHeld : MeasurementHeld State.reset := by
  have m (c : Chan) : State.reset.monitor.get c = .powerOn := Quad.get_same ..
  exact {
    interval := by decide
    commit := (nomatch ·)
    thresholds := fun c h => by rw [m] at h; simp [MonitorChan.powerOn] at h
    marks := fun c h => by rw [m] at h; simp [MonitorChan.powerOn] at h
    episode := fun c => by rw [m]; simp [MonitorChan.powerOn]
    limit := fun c h => by rw [m] at h; simp [MonitorChan.powerOn] at h }

theorem reset_positionsHeld : PositionsHeld State.reset where
  heads c := by cases c <;> decide
  starts i d h := by
    have empty : ∀ j : Fin 16, (State.reset.capture.regions[j]).descriptor = none := by decide
    rw [empty i] at h; cases h
  buffer _ h := nomatch h
  write _ h := nomatch h
  read _ _ h := nomatch h

/-- Settles O4: each invariant by the values of the reset. -/
theorem resetHoldsInvariants : Obligations.ResetHoldsInvariants := by
  obtain ⟨legal, ranges⟩ := reset_rangesKept
  refine ⟨rfl, legal, ⟨by decide, by decide, by decide, by decide, by decide, by decide⟩, ⟨legal, ranges⟩,
    reset_unitsHeld, ⟨by decide, fun _ h => nomatch h⟩, reset_measurementHeld, ⟨by decide, by decide, by decide, fun _ _ h => nomatch h⟩,
    ⟨by decide, by decide, by decide, by decide⟩, fun c => by cases c <;> decide, reset_positionsHeld,
    ⟨by decide, fun _ => ⟨rfl, rfl⟩, (nomatch ·), fun c => by cases c <;> rfl⟩⟩

end Sys2Proof.Machine
end

section
/-! PROOFS. The steps of a block end against those still due (R1, R37): a principle for properties that speak of the due steps, and
the ranges of a unit's items (R21, R22, R30 to R34). -/

namespace Sys2Proof.Machine

/-! ### Steps that are due -/

@[simp] theorem runTask_blockWork (pick : Nat → Nat) (t : Task) (s : State) : (runTask pick t s).blockWork = s.blockWork := by
  cases t <;> simp [runTask]

theorem Task.before_self (t : Task) : t.before t = false := by cases t <;> simp [Task.before]

/-- The channel of a step of the monitor or the capture controller. -/
def Task.chan : Task → Option Chan
  | .peak c | .budget c | .episode c | .capture c => some c
  | _ => none

theorem Task.rank_of_chan {t : Task} {c : Chan} (h : t.chan = some c) : 5 ≤ t.rank ∧ t.rank ≤ 8 := by
  cases t <;> simp_all [Task.chan, Task.rank]

theorem Task.rank_of_no_chan {t : Task} (h : t.chan = none) : t.rank ≤ 4 ∨ 8 ≤ t.rank := by
  cases t <;> simp_all [Task.chan, Task.rank]

/-- A step waits for those of lower rank, but for none of the engine or the capture controller, and of the steps with a channel
for those of its own alone. -/
theorem Task.before_iff (u t : Task) :
    u.before t = true ↔ u ≠ .engine ∧ (∀ c, u ≠ .capture c) ∧ u.rank < t.rank ∧
      ∀ c d, u.chan = some c → t.chan = some d → c = d := by
  cases u <;> cases t <;> simp [Task.before, Task.rank, Task.chan, eq_comm]

theorem Task.before_trans {u v t : Task} (first : u.before v = true) (second : v.before t = true) : u.before t = true := by
  rw [Task.before_iff] at first second ⊢
  obtain ⟨notEngine, notCapture, low, same⟩ := first
  obtain ⟨-, -, high, same'⟩ := second
  refine ⟨notEngine, notCapture, low.trans high, fun c d hc hd => ?_⟩
  have := Task.rank_of_chan hc
  have := Task.rank_of_chan hd
  cases mid : v.chan with
  | some e => exact (same c e hc mid).trans (same' e d mid hd)
  | none => have := Task.rank_of_no_chan mid; omega

theorem diff_self (l : List Task) : l.diff l = [] := by
  induction l with
  | nil => rfl
  | cons t l ih => rw [List.diff_cons, List.erase_cons_head, ih]

/-- The steps that satisfy a test are taken away. -/
theorem diff_filter (p : Task → Bool) (l : List Task) : l.diff (l.filter p) = l.filter fun t => !p t := by
  induction l with
  | nil => rfl
  | cons t l ih =>
    cases h : p t with
    | true => rw [List.filter_cons_of_pos h, List.diff_cons, List.erase_cons_head, ih, List.filter_cons_of_neg (by simp [h])]
    | false =>
      rw [List.filter_cons_of_neg (by simp [h]), List.filter_cons_of_pos (by simp [h]), ← ih]
      exact List.cons_diff_of_not_mem (fun mem => by simp [h] at mem) l

/-- The state with the steps of `l` still due. -/
def State.withDue (s : State) (l : List Task) : State := { s with blockWork := some l }

/-- What a step keeps that is due and waits for no other, of the steps still due and the state. -/
abbrev TaskKept (P : List Task → State → Prop) : Prop :=
  ∀ (s : State) (l : List Task) (t : Task), s.blockWork = some l → t ∈ l → (∀ u ∈ l, u.before t = false) → P l s →
    P (l.erase t) (runTask Config.pick t { s with blockWork := some (l.erase t) })

section Due

variable {P : List Task → State → Prop} (k : TaskKept P)
include k

theorem runTasks_due : ∀ (order : List Task) (s : State) (l : List Task), s.blockWork = some l → order.Subperm l →
    order.Pairwise (fun u t => t.before u = false) → (∀ u ∈ l.diff order, ∀ t ∈ order, u.before t = false) → P l s →
    P (l.diff order) (runTasks Config.pick order s) ∧ (runTasks Config.pick order s).blockWork = some (l.diff order) := by
  intro order
  induction order with
  | nil => exact fun s l due _ _ _ hs => ⟨hs, due⟩
  | cons t order ih =>
    intro s l due inside ordered late hs
    obtain ⟨first, ordered⟩ := List.pairwise_cons.1 ordered
    have mem : t ∈ l := inside.subset List.mem_cons_self
    have rest : order.Subperm (l.erase t) := by simpa using inside.erase t
    have ready : ∀ u ∈ l, u.before t = false := fun u hu => by
      by_cases taken : u ∈ t :: order
      · obtain rfl | later := List.mem_cons.1 taken
        · exact u.before_self
        · exact first u later
      · exact late u (List.mem_diff_of_mem hu taken) t List.mem_cons_self
    have taken := k s l t due mem ready hs
    rw [runTasks, due]
    rw [List.diff_cons] at late ⊢
    exact ih _ _ (runTask_blockWork ..) rest ordered (fun u hu v hv => late u hu v (List.mem_cons_of_mem t hv)) taken

/-- Before the event of a step, the steps that it waits for are taken. -/
theorem takeSteps_before (s : State) (l : List Task) (t : Task) (due : s.blockWork = some l)
    (hs : P l { s with choice := s.choice + (l.filter fun u => u.before t).length }) :
    (s.takeSteps Config.pick (l.filter fun u => u.before t)).blockWork = some (l.filter fun u => !u.before t) ∧
      P (l.filter fun u => !u.before t) (s.takeSteps Config.pick (l.filter fun u => u.before t)) := by
  have perm := schedule_perm ready Config.pick (l.filter fun u => u.before t).length s.choice (l.filter fun u => u.before t)
  have left := perm.diff_left l
  rw [diff_filter] at left
  obtain ⟨kept, work⟩ := runTasks_due k _ { s with choice := s.choice + (l.filter fun u => u.before t).length } l due
    (perm.subperm.trans List.filter_sublist.subperm) (schedule_ordered _ _ _ _ le_rfl) (fun u hu v hv => by
      rw [left] at hu
      have late := (List.mem_filter.1 hu).2
      have early := (List.mem_filter.1 (perm.mem_iff.1 hv)).2
      by_contra h
      rw [Task.before_trans (by simpa using h) early] at late
      cases late) hs
  rw [left] at kept work
  exact ⟨work, kept⟩

/-- The command that names an event takes the steps before its step, and at the event that step too. -/
theorem takeUpTo_due (s : State) (l : List Task) (t : Task) (falls : State → Bool) (due : s.blockWork = some l) (mem : t ∈ l)
    (hs : P l { s with choice := s.choice + (l.filter fun u => u.before t).length }) :
    ∃ u, u.blockWork = some (l.filter fun u => !u.before t) ∧ P (l.filter fun u => !u.before t) u ∧
      s.takeUpTo Config.pick t falls =
        if falls u then
          runTask Config.pick t (u.withDue ((l.filter fun u => !u.before t).erase t))
        else s := by
  obtain ⟨work, kept⟩ := takeSteps_before k s l t due hs
  refine ⟨_, work, kept, ?_⟩
  unfold State.takeUpTo
  rw [due]
  dsimp only
  rw [if_pos (List.contains_iff_mem.2 mem), work, Option.map_some, State.withDue]

/-- BLOCK_END takes every step still due. -/
theorem finishBlock_due (s : State) (l : List Task) (due : s.blockWork = some l)
    (hs : P l { s with choice := s.choice + l.length }) :
    ∃ u, u.blockWork = some [] ∧ P [] u ∧ s.finishBlock Config.pick = u.endOfBlock := by
  obtain ⟨order, perm, ordered, same⟩ := finishBlock_order Config.pick s l due
  have none : l.diff order = [] := by rw [perm.diff_left l, diff_self]
  obtain ⟨kept, work⟩ := runTasks_due k order { s with choice := s.choice + l.length } l due perm.subperm ordered
    (fun u hu => by rw [none] at hu; cases hu) hs
  rw [none] at kept work
  exact ⟨_, work, kept, same⟩

end Due

/-- A step that waits for none is taken alone by the command that names its event. -/
theorem takeUpTo_of_ready {s : State} {t : Task} {l : List Task} (h : Ready s t l) (falls : State → Bool) :
    s.takeUpTo Config.pick t falls =
      if falls s then runTask Config.pick t (s.withDue (l.erase t)) else s := by
  obtain ⟨due, mem, first⟩ := h
  have none : (l.filter fun u => u.before t) = [] := List.filter_eq_nil_iff.2 fun u hu => by simp [first u hu]
  unfold State.takeUpTo
  rw [due]
  dsimp only
  rw [if_pos (List.contains_iff_mem.2 mem), none, takeSteps_nil, due, Option.map_some, State.withDue]

/-- The state in which BLOCK_END takes the one step that is due. -/
def State.alone (s : State) : State := { s with choice := s.choice + 1, blockWork := some [] }

/-- BLOCK_END with one step due takes that step. -/
theorem finishBlock_of_one {s : State} {t : Task} (due : s.blockWork = some [t]) :
    s.finishBlock Config.pick = (runTask Config.pick t s.alone).endOfBlock := by
  obtain ⟨order, perm, -, same⟩ := finishBlock_order Config.pick s [t] due
  rw [same, List.perm_singleton.1 perm, runTasks, runTasks, due, State.alone]
  simp

/-- A property of the state that the due steps keep, each taken away as it is taken, and the end of a block. -/
structure DueKept (P : State → Prop) : Prop where
  choice : ∀ s n, P s → P { s with choice := n }
  task : TaskKept fun _ => P
  ended : ∀ s, s.blockWork = some [] → P s → P s.endOfBlock

namespace DueKept

variable {P : State → Prop} (k : DueKept P)
include k

theorem finish (s : State) (hs : P s) : P (s.finishBlock Config.pick) := by
  cases due : s.blockWork with
  | none => rw [finishBlock_of_none _ s due]; exact hs
  | some l =>
    obtain ⟨u, work, kept, same⟩ := finishBlock_due k.task s l due (k.choice s _ hs)
    rw [same]
    exact k.ended u work kept

theorem upTo (s : State) (t : Task) (falls : State → Bool) (hs : P s) : P (s.takeUpTo Config.pick t falls) := by
  unfold State.takeUpTo
  split
  next => exact hs
  next l due =>
    split
    next found =>
      obtain ⟨left, kept⟩ := takeSteps_before k.task s l t due (k.choice s _ hs)
      dsimp only
      split
      next =>
        rw [left, Option.map_some]
        refine k.task _ _ t left (List.mem_filter.2 ⟨List.contains_iff_mem.1 found, by rw [t.before_self]; rfl⟩)
          (fun u hu => by simpa using (List.mem_filter.1 hu).2) kept
      next => exact hs
    next => exact hs

end DueKept

/-! ### A unit's items (R22, R26, R30, R31, R33) -/

theorem normalise_within {x : Int} (low : -2 ^ 23 ≤ x) (high : x ≤ 2 ^ 23 - 1) (g : Nat) :
    -2 ^ 31 ≤ normalise g x ∧ normalise g x ≤ 2 ^ 31 - 256 := by
  have factor : (4 : Int) ^ (4 - g) ≤ 256 ∧ 0 < (4 : Int) ^ (4 - g) :=
    ⟨(pow_le_pow_right₀ (by norm_num) (Nat.sub_le 4 g)).trans (by norm_num), by positivity⟩
  unfold normalise
  generalize (4 : Int) ^ (4 - g) = f at factor
  constructor <;> nlinarith

theorem saturate32_legal (x : Int) : inSigned32 (saturate32 x) := by
  unfold inSigned32 saturate32; omega

theorem inSigned32.natAbs_le {x : Int} (h : inSigned32 x) : x.natAbs ≤ 2 ^ 31 := by
  obtain ⟨low, high⟩ := h
  omega

theorem squareOf_le {w : Int} (h : inSigned32 w) : squareOf w ≤ 2 ^ 46 := by
  have square : w.natAbs ^ 2 ≤ (2 ^ 31) ^ 2 := Nat.pow_le_pow_left h.natAbs_le 2
  unfold squareOf
  exact Nat.div_le_of_le_mul (by omega)

theorem pathOut_legal (w : WeightingSet) (p : FilterPath) (a : Int) : inSigned32 (pathOut w p a) := saturate32_legal _

theorem sectionSaturates_le (c : Coeffs) (st : SectionState) (x : Int) : sectionSaturates c st x ≤ 1 := by
  unfold sectionSaturates; split <;> omega

theorem pathSaturations_le (w : WeightingSet) (p : FilterPath) (a : Int) : pathSaturations w p a ≤ 3 := by
  unfold pathSaturations
  have first := sectionSaturates_le w.first p.first a
  have second := sectionSaturates_le w.second p.second (sectionOut w.first p.first a)
  have third := sectionSaturates_le w.third p.third (sectionOut w.second p.second (sectionOut w.first p.first a))
  omega

theorem SectionState.legal.next {st : SectionState} (h : st.legal) (c : Coeffs) {x : Int} (hx : inSigned32 x) :
    (sectionNext c st x).legal := ⟨hx, h.1, saturate32_legal _, h.2.2.1⟩

theorem FilterPath.legal.next {p : FilterPath} (h : p.legal) (w : WeightingSet) {a : Int} (ha : inSigned32 a) :
    (pathNext w p a).legal :=
  ⟨h.1.next _ ha, h.2.1.next _ (saturate32_legal _), h.2.2.next _ (saturate32_legal _)⟩

theorem detectorStep_le {d : Nat} (hd : 0 < d) {e y top : Nat} (he : e ≤ top) (hy : y ≤ top) : detectorStep d e y ≤ top :=
  (detectorStep_between hd e y).2.trans (max_le hy he)

namespace WeightUnit.Held

variable {u : WeightUnit} {n : Nat} (h : u.Held n)
include h

/-- A sample is taken. -/
theorem take (main peak : WeightingSet) (internal : Bool) {a : Int} (low : -2 ^ 31 ≤ a) (high : a ≤ 2 ^ 31 - 256) (x : Int) :
    (u.take main peak internal a x).Held (n + 1) where
  raw := by simp [WeightUnit.take, h.raw]
  energy := by
    have old := h.energy
    have new := squareOf_le (pathOut_legal main u.main a)
    simp only [WeightUnit.take]; omega
  checkEnergy := by
    have old := h.checkEnergy
    have new : squareOf a ≤ 2 ^ 46 := squareOf_le ⟨low, by omega⟩
    cases internal with
    | false => exact old.trans (Nat.mul_le_mul_right _ (Nat.le_succ n))
    | true => simp only [WeightUnit.take, if_true]; omega
  blockPeak := max_le h.blockPeak (pathOut_legal peak u.peak a).natAbs_le
  saturations := by
    have old := h.saturations
    have main := pathSaturations_le main u.main a
    have peak := pathSaturations_le peak u.peak a
    simp only [WeightUnit.take]; omega
  lastValid := ⟨low, high⟩
  main := h.main.next _ ⟨low, by omega⟩
  peak := h.peak.next _ ⟨low, by omega⟩
  yF := h.yF
  yS := h.yS
  fCount := h.fCount
  sCount := h.sCount

theorem clearDetectors : u.clearDetectors.Held n :=
  { h with yF := Nat.zero_le _, yS := Nat.zero_le _, fCount := Nat.zero_le _, sCount := Nat.zero_le _ }

theorem clearAll : u.clearAll.Held n :=
  { h.clearDetectors with main := FilterPath.rest_legal, peak := FilterPath.rest_legal }

theorem commit (main peak : Bool) : (u.commit main peak).Held n := by
  have cleared : ({ u.clearDetectors with main := .rest } : WeightUnit).Held n :=
    { h.clearDetectors with main := FilterPath.rest_legal }
  cases main <;> cases peak
  · exact h
  · exact { h with peak := FilterPath.rest_legal }
  · exact cleared
  · exact { cleared with peak := FilterPath.rest_legal }

omit h in
/-- A whole block is handed: the detectors move on and the sums start anew. -/
theorem handed (h : u.Held 48) : u.update.clearSums.Held 0 where
  raw := rfl
  energy := Nat.zero_le _
  checkEnergy := Nat.zero_le _
  blockPeak := Nat.zero_le _
  saturations := Nat.zero_le _
  lastValid := h.lastValid
  main := h.main
  peak := h.peak
  yF := detectorStep_le (by norm_num) h.energy h.yF
  yS := detectorStep_le (by norm_num) h.energy h.yS
  fCount := min_le_left ..
  sCount := min_le_left ..

end WeightUnit.Held

/-! ### The units of the four channels -/

/-- The units with these steps due and this frame counter: all 48 samples are held while a unit's step is due. -/
structure UnitsWithin (samples : Nat) (work : Option (List Task)) (params : Option CheckParams) (unit : Quad WeightUnit) :
    Prop where
  counter : samples < 48
  counterDue : work.isSome = true → samples = 0
  steps : (work.getD []).Sublist allTasks
  amplitude : ∀ p, params = some p → p.source = .internal → p.amplitude ≤ 8000000
  units : ∀ c, (unit.get c).Held (if .weigh c ∈ work.getD [] then 48 else samples)

/-- The units of a state keep within their ranges. -/
abbrev State.UnitsKept (s : State) : Prop := UnitsWithin s.port.frameCounter s.blockWork s.check.params s.unit

theorem unitsHeld_iff (s : State) : UnitsHeld s ↔ s.UnitsKept :=
  ⟨fun h => ⟨h.counter, h.counterDue, h.steps, h.amplitude, h.units⟩,
    fun h => ⟨h.counter, h.counterDue, h.steps, h.amplitude, h.units⟩⟩

namespace UnitsWithin

variable {samples : Nat} {work : Option (List Task)} {params : Option CheckParams} {unit : Quad WeightUnit}
  (h : UnitsWithin samples work params unit)
include h

/-- Every unit moves within what it holds. -/
theorem mapUnits {unit' : Quad WeightUnit} (keeps : ∀ c n, (unit.get c).Held n → (unit'.get c).Held n) :
    UnitsWithin samples work params unit' :=
  { h with units := fun c => keeps c _ (h.units c) }

theorem set {c : Chan} {u : WeightUnit} (keeps : ∀ n, (unit.get c).Held n → u.Held n) :
    UnitsWithin samples work params (unit.set c u) :=
  h.mapUnits fun d n held => by
    rw [Quad.get_set]
    split
    next same => exact keeps n (same ▸ held)
    next => exact held

theorem withParams {params' : Option CheckParams}
    (amplitude : ∀ p, params' = some p → p.source = .internal → p.amplitude ≤ 8000000) :
    UnitsWithin samples work params' unit :=
  { h with amplitude }

end UnitsWithin

theorem endCheck_unitsKept {s : State} (h : s.UnitsKept) (e : Ending) (counted : Nat) (stamp : Stamp) :
    (s.endCheck e counted stamp).UnitsKept := by
  unfold State.endCheck
  split
  next => exact h
  next => exact h
  next p _ _ =>
    dsimp only [State.UnitsKept]
    rw [offer_port, offer_blockWork, offer_check, offer_unit, adjustK_frame]
    exact (h.set fun _ held => held.clearAll).withParams (fun _ none => nomatch none)

theorem units_meterKept : MeterKept State.UnitsKept where
  quiet s u port _ unit _ check work h := by
    unfold State.UnitsKept at h ⊢
    rw [port, unit, check, work]; exact h
  cut _ _ _ h := endCheck_unitsKept h ..
  commit s h := h.mapUnits fun c n held => by
    simp only [State.commitUnits, State.commitRanges, Quad.get_mapWith]
    exact held.commit ..

theorem engineStep_unitsKept {s : State} (h : s.UnitsKept) : s.engineStep.UnitsKept := by
  unfold State.engineStep
  split
  all_goals first
    | exact endCheck_unitsKept h ..
    | exact h

theorem runTask_unitsKept (t : Task) {s : State} (other : ∀ c, t ≠ .weigh c) (h : s.UnitsKept) :
    (runTask Config.pick t s).UnitsKept := by
  have k := units_meterKept
  cases t with
  | weigh c => exact absurd rfl (other c)
  | engine => exact engineStep_unitsKept h
  | boundary => exact k.boundaryStep Config.pick s h
  | range c | clock | classify | accumulate | peak c | budget c | episode c | capture c | alert | live =>
    exact (by simpa [State.UnitsKept, runTask] using h)

theorem allTasks_nodup : allTasks.Nodup := by decide

theorem units_dueKept : DueKept State.UnitsKept where
  choice _ _ h := h
  task s l t due mem _ h := by
    have nodup : l.Nodup := by
      have steps := h.steps
      rw [due] at steps
      exact allTasks_nodup.sublist steps
    have left (c : Chan) (other : t ≠ .weigh c) : (.weigh c ∈ l.erase t) = (.weigh c ∈ l) :=
      propext (List.mem_erase_of_ne (Ne.symm other))
    have zero : s.port.frameCounter = 0 := h.counterDue (by rw [due]; rfl)
    have steps : (l.erase t).Sublist allTasks := by
      have steps := h.steps
      rw [due] at steps
      exact List.erase_sublist.trans steps
    by_cases weigh : ∃ c, t = .weigh c
    · obtain ⟨c, rfl⟩ := weigh
      refine ⟨h.counter, fun _ => zero, steps, h.amplitude, fun d => ?_⟩
      have held := h.units d
      rw [due, Option.getD_some] at held
      change ((s.unit.set c (s.unit.get c).update.clearSums).get d).Held (if .weigh d ∈ l.erase (.weigh c) then 48
        else s.port.frameCounter)
      rw [Quad.get_set]
      split
      next same =>
        subst same
        rw [if_pos mem] at held
        rw [if_neg (nodup.not_mem_erase), zero]
        exact held.handed
      next other =>
        simpa only [left d fun e => other (Task.weigh.inj e).symm] using held
    · have other (c : Chan) : t ≠ .weigh c := fun e => weigh ⟨c, e⟩
      refine runTask_unitsKept t other ⟨h.counter, fun _ => zero, steps, h.amplitude, fun c => ?_⟩
      have held := h.units c
      rw [due] at held
      simpa only [Option.getD_some, left c (other c)] using held
  ended s due h := { h with
    counterDue := (nomatch ·)
    steps := List.nil_sublist _
    units := fun c => by
      have held := h.units c
      rw [due] at held
      exact held }

/-! ### A frame and a check -/

theorem on_params {e : CheckEngine} {c : Chan} {p : CheckParams} (h : e.on c = some p) : e.params = some p := by
  unfold CheckEngine.on at h
  split at h
  next => cases h
  next p params _ =>
    split at h
    next => exact params.trans h
    next => cases h
  next => cases h

/-- What a channel's unit takes lies in the normalised range: a raw sample, the test value or the value held (R22, R24). -/
theorem unitSample_within {s : State} (h : s.UnitsKept) (c : Chan) (x : Sample) :
    -2 ^ 31 ≤ s.unitSample c x.toInt ∧ s.unitSample c x.toInt ≤ 2 ^ 31 - 256 := by
  unfold State.unitSample WeightUnit.normalised
  split
  · exact (h.units c).lastValid
  · unfold State.unitInput
    split
    next p on =>
      obtain ⟨params, source⟩ : s.check.params = some p ∧ p.source = .internal := by
        unfold CheckEngine.internalOn at on
        split at on
        next q check =>
          split at on
          next source =>
            cases on
            exact ⟨on_params check, source⟩
          next => cases on
        next => cases on
      have amplitude := h.amplitude p params source
      refine normalise_within ?_ ?_ _ <;> unfold testValue <;> split <;> omega
    next => exact normalise_within (BitVec.le_toInt x) (by have := BitVec.toInt_lt (x := x); omega) _

theorem handleFrame_unitsKept {s : State} (h : s.UnitsKept) (none : s.blockWork = none) (x1 x2 x3 x4 : Sample) (act : Bool) :
    (s.handleFrame x1 x2 x3 x4 act).UnitsKept := by
  have counter := h.counter
  have taken (c : Chan) : ((s.handleFrame x1 x2 x3 x4 act).unit.get c).Held (s.port.frameCounter + 1) := by
    have held := h.units c
    rw [none] at held
    obtain ⟨low, high⟩ := unitSample_within h c (frameSample x1 x2 x3 x4 c)
    rw [handleFrame_unit]
    exact held.take _ _ _ low high _
  unfold State.UnitsKept
  rw [handleFrame_port, handleFrame_blockWork, show (s.handleFrame x1 x2 x3 x4 act).check = s.check by rw [handleFrame_frame],
    none]
  dsimp only
  split
  next within =>
    exact ⟨by omega, (nomatch ·), List.nil_sublist _, h.amplitude, taken⟩
  next last =>
    refine ⟨by norm_num, fun _ => rfl, .refl _, h.amplitude, fun c => ?_⟩
    rw [if_pos (by cases c <;> decide)]
    have full : s.port.frameCounter + 1 = 48 := by omega
    exact full ▸ taken c

theorem startCheckOf_amplitude {body : List Byte} {p : CheckParams} (h : startCheckOf body = some p)
    (internal : p.source = .internal) : p.amplitude ≤ 8000000 := by
  unfold startCheckOf at h
  split at h
  next c source adjust _ _ _ =>
    obtain ⟨legal, rfl⟩ := accept_eq_some h
    dsimp only at internal
    subst internal
    simp only [Bool.and_eq_true, decide_eq_true_eq] at legal
    exact legal.2.1.1.2
  next => cases h

theorem units_keptBy (i : Instr) : KeptBy State.UnitsKept State.UnitsKept i := by
  have k := units_meterKept
  have rules : RuleKept State.UnitsKept i := {
    softReset := fun s body => k.softResetRule (fun s h => h.mapUnits fun c n held => by
      simpa [State.resetUnits] using held.clearDetectors) body s
    commitNow := fun s _ _ => k.commitAtOnce s _
    startCheck := fun s body p found _ _ h => by
      have began := h.withParams (params' := some p) fun q same => by cases same; exact startCheckOf_amplitude found
      unfold State.UnitsKept State.beginCheck
      simpa using began
    abortCheck := fun s h => k.cut s _ _ h }
  exact {
    powerOn := fun _ _ _ _ _ =>
      have reset : State.reset.UnitsKept := (unitsHeld_iff _).1 reset_unitsHeld
      reset
    finish := units_dueKept.finish
    upTo := units_dueKept.upTo
    frame := fun s gap x1 x2 x3 x4 act _ none h => by
      have resumed : (s.resumeInput gap).UnitsKept := by
        unfold State.resumeInput
        split
        · exact k.offer _ _ _ _ h
        · exact h
      exact handleFrame_unitsKept resumed (by rw [resumeInput_frame]; exact none) ..
    stall := fun s _ _ => k.enterStalled (fun _ h => h) _ s
    rule := RuleKept.send rules fun s kind tag body h => by rw [reply_frame]; exact h }

/-- Settles O9: a unit holds a whole block exactly while its step is due. -/
theorem unitsHeldByStep : Obligations.UnitsHeldByStep := by
  intro s t h next
  rw [unitsHeld_iff] at h ⊢
  exact step_keeps (fun _ _ hs => hs) units_keptBy h next

end Sys2Proof.Machine
end

section
/-! PROOFS. What only a block end does: site time moves (R55, R56, R59, R63), and the image of SNAPSHOT is taken (R168). -/

namespace Sys2Proof.Machine

/-- What the completed block leaves, BLOCK_END leaves. -/
theorem exec_blockEnd {s t : State} (h : s.finishBlock Config.pick = t) : exec .blockEnd s = .next t := congrArg _ h

/-! ### The clock -/

/-- From the reading `now` and pending load `load`, with the clock's step due if `due`: while the step is due the clock stands, and
where the reading has moved, it moved by that step. -/
structure ClockMoves (now : Stamp) (load : Option Stamp) (due : Prop) (work : Option (List Task)) (clock : Clock) :
    Prop where
  steps : (work.getD []).Sublist allTasks
  still : .clock ∈ work.getD [] → due ∧ clock.now = now ∧ clock.pendingLoad = load
  moved : clock.now ≠ now → due ∧ ((load = none ∧ clock.now = advance now) ∨ load = some clock.now)

section Clock

variable {now : Stamp} {load : Option Stamp} {due : Prop}

theorem clockStep_now (s : State) :
    (s.clock.pendingLoad = none ∧ s.clockStep.clock.now = advance s.clock.now) ∨
      s.clock.pendingLoad = some s.clockStep.clock.now := by
  unfold State.clockStep
  cases load : s.clock.pendingLoad with
  | none => exact .inl ⟨rfl, rfl⟩
  | some t => exact .inr rfl

/-- A step other than the clock's leaves the reading and a pending load. -/
theorem runTask_now (t : Task) (s : State) (other : t ≠ .clock) :
    (runTask Config.pick t s).clock.now = s.clock.now ∧
      (runTask Config.pick t s).clock.pendingLoad = s.clock.pendingLoad := by
  cases t with
  | clock => exact absurd rfl other
  | boundary =>
    obtain ⟨e, he⟩ := boundaryStep_clock s Config.pick
    rw [runTask, he]
    exact ⟨rfl, rfl⟩
  | _ => simp [runTask]

theorem clockMoves_dueKept : DueKept fun u => ClockMoves now load due u.blockWork u.clock where
  choice _ _ h := h
  task s l t found mem _ h := by
    obtain ⟨steps, still, moved⟩ := h
    rw [found, Option.getD_some] at steps still
    rw [runTask_blockWork]
    by_cases clock : t = .clock
    · subst clock
      obtain ⟨wasDue, hn, hl⟩ := still mem
      refine ⟨List.erase_sublist.trans steps, fun again => ?_, fun _ => ⟨wasDue, ?_⟩⟩
      · exact absurd again (allTasks_nodup.sublist steps).not_mem_erase
      · rw [← hn, ← hl]
        exact clockStep_now { s with blockWork := some (l.erase .clock) }
    · obtain ⟨hn, hl⟩ := runTask_now t { s with blockWork := some (l.erase t) } clock
      refine ⟨List.erase_sublist.trans steps, fun left => ?_, fun changed => ?_⟩
      · rw [hn, hl]
        exact still (List.mem_of_mem_erase left)
      · rw [hn] at changed ⊢
        exact moved changed
  ended s found h := ⟨List.nil_sublist _, (nomatch ·), h.moved⟩

theorem clockMoves_keptBy (i : Instr) (notReset : ∀ rate1 rate0, i ≠ .powerOnReset rate1 rate0)
    (notTime : ∀ tag body, i ≠ .setTime tag body) :
    KeptBy (fun u => ClockMoves now load due u.blockWork u.clock)
      (fun u => u.clock.now ≠ now → due ∧ ((load = none ∧ u.clock.now = advance now) ∨ load = some u.clock.now)) i where
  same _ h := h.moved
  powerOn rate1 rate0 _ e _ := absurd e (notReset rate1 rate0)
  finish := clockMoves_dueKept.finish
  upTo := clockMoves_dueKept.upTo
  frame s gap x1 x2 x3 x4 act _ _ h := by rw [handleFrame_frame, resumeInput_frame]; exact h.moved
  rule := RuleKept.send
    { softReset := fun s body h => by rw [softResetRule_frame]; exact ⟨h.steps, h.still, h.moved⟩
      setTime := fun s t ⟨tag, body, e⟩ _ _ => absurd e (notTime tag body) }
    fun s kind tag body h => by rw [reply_frame]; exact h

end Clock

/-- SET_TIME itself leaves the reading, which moves only by the block end that it finds begun. -/
theorem setTime_now (tag : Byte) (body : List Byte) (s : State) :
    (s.runCommand Config.pick 0x04 tag body setTimeRule).clock.now = (s.settle Config.pick).clock.now := by
  unfold State.runCommand
  dsimp only
  split
  next u begun =>
    obtain ⟨-, l, -, rfl⟩ := begin_cases begun
    unfold answer
    rw [Answer.send, reply_clock]
    split
    · obtain e | ⟨t, -, e⟩ := setTimeRule_cases body { s.settle Config.pick with link := l } <;> rw [e]
    · rfl
  next => rw [wait_frame]

/-- Settles O16: the clock's step alone moves the reading, once while it is due. -/
theorem onlyBlockEndsMoveClock : Obligations.OnlyBlockEndsMoveClock := by
  intro i s t next steps changed
  have start : ClockMoves s.clock.now s.clock.pendingLoad (.clock ∈ s.dueSteps) s.blockWork s.clock :=
    ⟨steps, fun h => ⟨h, rfl, rfl⟩, fun h => absurd rfl h⟩
  by_cases reset : ∃ rate1 rate0, i = .powerOnReset rate1 rate0
  · exact .inl reset
  by_cases time : ∃ tag body, i = .setTime tag body
  · obtain ⟨tag, body, rfl⟩ := time
    rw [exec_ruleCommand rfl] at next
    cases next
    dsimp only at changed ⊢
    rw [setTime_now] at changed ⊢
    unfold State.settle at changed ⊢
    split at changed
    next begun =>
      rw [if_pos begun]
      exact .inr ((clockMoves_dueKept.finish s start).moved changed)
    next => exact absurd rfl changed
  · refine .inr ((clockMoves_keptBy i (fun a b e => reset ⟨a, b, e⟩) fun a b e => time ⟨a, b, e⟩).exec next start changed)

/-! ### The image -/

/-- With the live step not due, the image stands. -/
structure ImageStands (image : LiveImage) (work : Option (List Task)) (current : LiveImage) : Prop where
  notDue : .live ∉ work.getD []
  same : current = image

theorem imageStands_dueKept (image : LiveImage) : DueKept fun s => ImageStands image s.blockWork s.image where
  choice _ _ h := h
  task s l t found mem _ h := by
    obtain ⟨notDue, same⟩ := h
    rw [found, Option.getD_some] at notDue
    refine ⟨?_, ?_⟩
    · rw [runTask_blockWork]
      exact fun again => notDue (List.mem_of_mem_erase again)
    · have other : t ≠ .live := fun e => notDue (e ▸ mem)
      rw [← same]
      cases t with
      | live => exact absurd rfl other
      | _ => simp [runTask]
  ended s _ h := ⟨(nomatch ·), h.same⟩

/-- Without the live step and a power-on reset no command changes the image. -/
theorem image_stands (i : Instr) {s t : State} (next : exec i s = .next t) (notDue : .live ∉ s.dueSteps)
    (notReset : ∀ rate1 rate0, i ≠ .powerOnReset rate1 rate0) : t.image = s.image := by
  have kept : KeptBy (fun u => ImageStands s.image u.blockWork u.image) (fun u => u.image = s.image) i := {
    same := fun _ h => h.same
    powerOn := fun rate1 rate0 _ e _ => absurd e (notReset rate1 rate0)
    finish := (imageStands_dueKept s.image).finish
    upTo := (imageStands_dueKept s.image).upTo
    frame := fun s gap x1 x2 x3 x4 act _ _ h => by rw [handleFrame_frame, resumeInput_frame]; exact h.same
    rule := RuleKept.send {} fun s _ _ _ h => by rw [reply_frame]; exact h }
  exact kept.exec next ⟨notDue, rfl⟩

end Sys2Proof.Machine
end

section
/-! PROOFS. The live step of a block end (R166, R167, R168): the image of SNAPSHOT and the live report. -/

namespace Sys2Proof.Machine

/-! ### The image a block end leaves -/

/-- The image describes the state (R168). -/
structure ImageTaken (s : State) : Prop where
  stamp : s.image.stamp = s.clock.now
  mode : s.image.mode = s.active.mode
  chans : ∀ c, s.image.chans.get c = s.imageOf c

theorem takeImage_taken (s : State) : ImageTaken s.takeImage :=
  ⟨rfl, rfl, fun _ => Quad.get_mapWith ..⟩

/-- The image stays that of the state while what the live items read stays. -/
theorem ImageTaken.moveOn {s u : State} (h : ImageTaken s) (image : u.image = s.image) (clock : u.clock.now = s.clock.now)
    (active : u.active.mode = s.active.mode) (handed : u.handed = s.handed) (interval : u.interval = s.interval)
    (monitor : u.monitor = s.monitor) : ImageTaken u where
  stamp := by rw [image, h.stamp, clock]
  mode := by rw [image, h.mode, active]
  chans c := by
    rw [image, h.chans c]
    simp only [State.imageOf, State.results, State.accOf, handed, interval, monitor]

theorem liveStep_taken (s : State) : ImageTaken s.liveStep := by
  have entered (u : State) (r : LiveReport) (h : ImageTaken u) : ImageTaken (u.putLive r) := by
    unfold State.putLive
    exact h.moveOn (by simp) (by simp) (by simp) (by simp) (by simp) (by simp)
  unfold State.liveStep
  dsimp only
  have taken := takeImage_taken s
  split
  · split
    · exact entered _ _ (taken.moveOn rfl rfl rfl rfl rfl rfl)
    · exact taken.moveOn rfl rfl rfl rfl rfl rfl
  · exact taken.moveOn rfl rfl rfl rfl rfl rfl

theorem engineStep_active (s : State) : s.engineStep.active = s.active := by
  obtain e | ⟨c, k, -, -, -, e⟩ := engineStep_store s <;> unfold State.active <;> rw [e]
  rfl

/-- The live item of a channel, read off the image, is its value in the state (R167). -/
theorem ImageTaken.value {s : State} (h : ImageTaken s) (c : Chan) (item : LiveItem) :
    liveValue s.image.mode (s.k c) (s.image.chans.get c) item = itemValue s c item := by
  rw [h.chans c, h.mode]
  cases acc : s.accOf c with
  | none =>
    cases item <;> simp [liveValue, itemValue, State.imageOf, acc, detectorLevel, nosig, indet, EpisodePhase.code]
    case episodeState => cases (s.monitor.get c).phase <;> rfl
  | some a =>
    cases item <;> simp [liveValue, itemValue, State.imageOf, acc, detectorLevel, ChannelAcc.image, ChannelAcc.n,
      ChannelAcc.nActive, ChannelAcc.nQuiet]
    case peakSoFar => cases a.maxPeak <;> rfl
    case episodeState => cases (s.monitor.get c).phase <;> rfl

/-- Behind the live step only the engine's and the capture controller's are left, which the image does not read. -/
structure LiveOrder (l : List Task) (s : State) : Prop where
  nodup : l.Nodup
  taken : .live ∉ l → ImageTaken s ∧ ∀ t ∈ l, t = .engine ∨ ∃ c, t = .capture c

theorem before_live {t : Task} (late : t.before .live = false) : t = .live ∨ t = .engine ∨ ∃ c, t = .capture c := by
  cases t <;> simp_all [Task.before, Task.rank]

theorem liveOrder_taskKept : TaskKept LiveOrder := by
  intro s l t due mem first h
  refine ⟨h.nodup.erase t, fun gone => ?_⟩
  by_cases live : t = .live
  · subst live
    refine ⟨liveStep_taken _, fun u hu => ?_⟩
    obtain rfl | last := before_live (first u (List.mem_of_mem_erase hu))
    · exact absurd hu gone
    · exact last
  · have was : .live ∉ l := fun h => gone ((List.mem_erase_of_ne (Ne.symm live)).2 h)
    obtain ⟨taken, last⟩ := h.taken was
    refine ⟨?_, fun u hu => last u (List.mem_of_mem_erase hu)⟩
    obtain rfl | ⟨c, rfl⟩ := last t mem
    · exact taken.moveOn (by simp [runTask]) (by simp [runTask]) (congrArg _ (engineStep_active _)) (by simp [runTask])
        (by simp [runTask]) (by simp [runTask])
    · exact taken.moveOn (by simp [runTask]) (by simp [runTask]) (by simp [runTask]) (by simp [runTask]) (by simp [runTask])
        (by simp [runTask])

/-! ### The live fields of the report queue -/

/-- From the report queue `q` the live counter, the reporting settings and the overwritten count stand, and behind a busy transmitter
the live slot too. -/
structure SameLive (q r : ReportQueue) : Prop where
  counter : r.liveCounter = q.liveCounter
  period : r.livePeriod = q.livePeriod
  on : r.liveOn = q.liveOn
  items : r.items = q.items
  overwritten : r.liveOverwritten = q.liveOverwritten
  busy : q.sending.isSome = true → r.sending.isSome = true ∧ r.liveSlot = q.liveSlot

namespace SameLive

variable {q : ReportQueue} {s : State}

theorem transmit (h : SameLive q s.report) : SameLive q s.transmit.report := by
  have busy : q.sending.isSome = true → s.transmit = s := fun b => by
    obtain ⟨m, sending⟩ := Option.isSome_iff_exists.1 (h.busy b).1
    exact transmit_sending s m sending
  rw [transmit_settings]
  exact ⟨h.counter, h.period, h.on, h.items, h.overwritten, fun b => by dsimp only; rw [busy b]; exact h.busy b⟩

theorem offer (h : SameLive q s.report) (c : Option Chan) (stamp : Stamp) (body : EventBody) :
    SameLive q (s.offer c stamp body).report := by
  unfold State.offer
  split
  next =>
    have entered : SameLive q ({ s with report := s.report.enqueue ⟨c, stamp, body⟩ } : State).report := by
      dsimp only
      unfold ReportQueue.enqueue
      split <;> exact ⟨h.counter, h.period, h.on, h.items, h.overwritten, h.busy⟩
    exact entered.transmit
  next => exact h

theorem putRecord (h : SameLive q s.report) (stamp : Stamp) (r : IntervalRecord) :
    SameLive q (s.putRecord stamp r).report := by
  have append (u : State) (hu : SameLive q u.report) :
      SameLive q (State.transmit { u with fifo := u.fifo ++ [r] }).report := by
    have entered : SameLive q ({ u with fifo := u.fifo ++ [r] } : State).report := hu
    exact entered.transmit
  unfold State.putRecord
  dsimp only
  split
  next oldest rest _ =>
    split
    · have dropped : SameLive q ({ s with fifo := rest, recordsLost := bump 65535 s.recordsLost } : State).report := h
      exact append _ (dropped.offer ..)
    · exact append s h
  next => exact append s h

theorem queueKept (q : ReportQueue) : QueueKept fun s => SameLive q s.report where
  quiet _ _ _ _ report _ h := report ▸ h
  offer _ c stamp body h := h.offer c stamp body
  putRecord _ stamp r h := h.putRecord stamp r
  move _ _ _ h := h

/-- Until the live step, which is due, the live fields stand. -/
theorem taskKept (q : ReportQueue) : TaskKept fun l s => l.Nodup ∧ (.live ∈ l → SameLive q s.report) :=
  fun s l t _ mem _ ⟨nodup, h⟩ => ⟨nodup.erase t, fun left => by
    have other : t ≠ .live := fun e => nodup.not_mem_erase (e ▸ left)
    exact (queueKept q).task t other _ (h (List.mem_of_mem_erase left))⟩

end SameLive

theorem atLivePoint_of_same {q r : ReportQueue} (h : SameLive q r) : r.atLivePoint = q.atLivePoint := by
  unfold ReportQueue.atLivePoint
  rw [h.counter, h.period]

/-- What the live step leaves at a live point, behind a busy transmitter (R166, log entry 18). -/
theorem liveStep_at {s : State} (at' : s.report.atLivePoint = true) (busy : s.report.sending.isSome = true) :
    s.liveStep.report.liveCounter = 0 ∧
      (s.report.liveOn = false → s.liveStep.report.liveSlot = s.report.liveSlot ∧
        s.liveStep.report.liveOverwritten = s.report.liveOverwritten) ∧
      (s.report.liveOn = true →
        s.liveStep.report.liveOverwritten =
          (if s.report.liveSlot.isSome then min 65535 (s.report.liveOverwritten + 1) else s.report.liveOverwritten) ∧
        s.liveStep.report.liveSlot = some s.takeImage.liveReport) := by
  obtain ⟨m, sending⟩ := Option.isSome_iff_exists.1 busy
  unfold State.liveStep
  dsimp only
  rw [if_pos (show s.takeImage.report.atLivePoint = true from at')]
  cases on : s.report.liveOn with
  | false =>
    rw [if_neg (by simp [on])]
    exact ⟨rfl, fun _ => ⟨rfl, rfl⟩, (nomatch ·)⟩
  | true =>
    rw [if_pos (by simp [on]), State.putLive, transmit_sending _ m (by exact sending)]
    exact ⟨rfl, (nomatch ·), fun _ => ⟨rfl, rfl⟩⟩

/-- The live report carries the item values of the state (R167). -/
theorem liveReport_values {s : State} (taken : ImageTaken s) (c : Chan) :
    s.liveReport.values.get c = s.report.items.map (itemValue s c) := by
  unfold State.liveReport
  dsimp only
  rw [Quad.get_mapWith]
  exact List.map_congr_left fun item _ => taken.value c item

/-- A report read off a state depends on its image, its items, its overwritten count and the K of its channels. -/
theorem itemValue_congr {s u : State} (store : u.store = s.store) (handed : u.handed = s.handed)
    (interval : u.interval = s.interval) (monitor : u.monitor = s.monitor) (c : Chan) : itemValue u c = itemValue s c := by
  funext item
  cases item <;> simp only [itemValue, State.results, State.accOf, State.k, State.active, store, handed, interval, monitor]

theorem exec_livePoint {s t : State} (h : s.takeUpTo Config.pick .live (fun s => s.report.atLivePoint) = t) :
    exec .livePoint s = .next t := congrArg _ h

/-- Settles O44: behind the live step nothing changes what the image describes, and before it nothing touches the live fields. -/
theorem livePointFormsReport : Obligations.LivePointFormsReport := by
  refine ⟨fun i s t next changed => ?_, fun s l due nodup mem => ?_, fun s l due nodup mem => ?_⟩
  · by_contra h
    push Not at h
    exact changed (image_stands i next h.1 h.2)
  · obtain ⟨u, -, order, same⟩ := finishBlock_due liveOrder_taskKept s l due ⟨nodup, fun gone => absurd mem gone⟩
    obtain ⟨taken, -⟩ := order.taken (nomatch ·)
    have ended : ImageTaken u.endOfBlock := taken.moveOn rfl rfl rfl rfl rfl rfl
    refine ⟨_, exec_blockEnd same, ended.stamp, fun c item => ?_⟩
    exact ended.value c item
  · have start : SameLive s.report s.report := ⟨rfl, rfl, rfl, rfl, rfl, fun b => ⟨b, rfl⟩⟩
    obtain ⟨u, work, ⟨-, live⟩, same⟩ := takeUpTo_due (SameLive.taskKept s.report) s l .live
      (fun s => s.report.atLivePoint) due mem ⟨nodup, fun _ => start⟩
    have live := live (List.mem_filter.2 ⟨mem, rfl⟩)
    rw [atLivePoint_of_same live] at same
    refine ⟨fun short => exec_livePoint (same.trans (if_neg ?_)), fun reached busy => ?_⟩
    · simpa [ReportQueue.atLivePoint] using short
    · have at' : s.report.atLivePoint = true := decide_eq_true reached
      rw [if_pos at'] at same
      obtain ⟨w, hw⟩ : ∃ w, w = u.withDue ((l.filter fun x : Task => !x.before .live).erase .live) := ⟨_, rfl⟩
      rw [← hw] at same
      have report : w.report = u.report := by rw [hw]; rfl
      rw [← report] at live
      refine ⟨w.liveStep, exec_livePoint same, ?_⟩
      obtain ⟨sending, slot⟩ := live.busy busy
      obtain ⟨counter, off, on⟩ := liveStep_at (s := w) ((atLivePoint_of_same live).trans at') sending
      refine ⟨counter, by rw [liveStep_blockWork, hw]; rfl, fun isOff => ?_, fun isOn => ?_⟩
      · obtain ⟨sameSlot, sameCount⟩ := off (live.on.trans isOff)
        exact ⟨sameSlot.trans slot, sameCount.trans live.overwritten⟩
      · obtain ⟨count, report⟩ := on (live.on.trans isOn)
        refine ⟨?_, _, report, ?_, live.overwritten, live.items, fun c => ?_⟩
        · rw [count, slot, live.overwritten]
        · exact (congrArg Clock.now (liveStep_clock w)).symm
        · have same : itemValue w.liveStep c = itemValue w.takeImage c :=
            itemValue_congr (by simp) (by simp) (by simp) (by simp) c
          rw [liveReport_values (takeImage_taken w), same, takeImage_report, live.items]

end Sys2Proof.Machine
end

section
/-! PROOFS. The alert line (R119 to R122), and the budget and peak steps of a block end (R104, R105, R117). -/

namespace Sys2Proof.Machine

theorem Quad.set_set {α : Type} (q : Quad α) (c : Chan) (x y : α) : (q.set c x).set c y = q.set c y := by
  cases c <;> rfl

/-! ### The alert line -/

theorem exec_togglePoint {s t : State} (h : s.takeUpTo Config.pick .alert (fun s => s.alert.atToggle) = t) :
    exec .togglePoint s = .next t := congrArg _ h

/-- Until the alert line's step, which is due, the alert line stands. -/
theorem alert_taskKept (a : AlertLine) : TaskKept fun l s => l.Nodup ∧ (.alert ∈ l → s.alert = a) :=
  fun s l t _ _ _ ⟨nodup, h⟩ => ⟨nodup.erase t, fun left => by
    have other : t ≠ .alert := fun e => nodup.not_mem_erase (e ▸ left)
    rw [← h (List.mem_of_mem_erase left)]
    cases t with
    | alert => exact absurd rfl other
    | _ => simp [runTask]⟩

/-- What the alert condition comes to, for three outcomes (R119). -/
theorem alertCondition_select (m : Quad MonitorChan) (spent episode none' : Bool) :
    (if Chan.all.any (fun c => (m.get c).spent) then spent
      else if Chan.all.any (fun c => decide ((m.get c).phase ≠ .idle)) then episode
      else none') =
      match alertCondition m with
      | .spent => spent
      | .episode => episode
      | .none => none' := by
  have all (p : MonitorChan → Bool) : Chan.all.any (fun c => p (m.get c)) = m.toList.any p := rfl
  rw [all (·.spent), all fun x => decide (x.phase ≠ .idle)]
  unfold alertCondition
  repeat' split
  all_goals simp_all

/-- The alert line behind a toggle point (R121, R122). -/
theorem toggle_values (a : AlertLine) (cond : AlertCondition) :
    (a.toggle cond).flashCounter = 1 ∧ (a.toggle cond).pendingSetting = none ∧
      ((a.toggle cond).mode, (a.toggle cond).halfPeriod) = a.pendingSetting.getD (a.mode, a.halfPeriod) ∧
      (a.toggle cond).high = match (a.toggle cond).mode with
        | .off => false
        | .steady => match cond with
          | .spent => true
          | .episode => true
          | .none => false
        | .flash => match cond with
          | .spent => true
          | .episode => !a.high
          | .none => false := by
  obtain ⟨mode, halfPeriod, counter, high, pending⟩ := a
  cases pending with
  | none => exact ⟨rfl, rfl, rfl, by cases mode <;> cases cond <;> rfl⟩
  | some setting =>
    obtain ⟨mode', halfPeriod'⟩ := setting
    exact ⟨rfl, rfl, rfl, by cases mode' <;> cases cond <;> rfl⟩

theorem alertStep_at {s : State} {a : AlertLine} (stands : s.alert = a) (at' : a.atToggle = true) :
    runTask Config.pick .alert s = { s with alert := a.toggle (alertCondition s.monitor) } := by
  rw [runTask, State.alertStep, AlertLine.blockEnd, stands, if_pos at']

/-- Settles O40: the line's own step, with nothing of it touched by the steps before. -/
theorem alertLineToggles : Obligations.AlertLineToggles := by
  intro s
  simp only [alertCondition_select]
  refine ⟨fun l due nodup mem => ?_, fun due plain => ?_⟩
  · obtain ⟨u, work, ⟨-, stands⟩, same⟩ := takeUpTo_due (alert_taskKept s.alert) s l .alert (fun s => s.alert.atToggle) due
      mem ⟨nodup, fun _ => rfl⟩
    have stands := stands (List.mem_filter.2 ⟨mem, rfl⟩)
    have falls : u.alert.atToggle = s.alert.atToggle := by rw [stands]
    rw [falls] at same
    refine ⟨fun plain => exec_togglePoint (same.trans (if_neg (by simpa [AlertLine.atToggle] using plain))), fun point => ?_⟩
    have at' : s.alert.atToggle = true := decide_eq_true point
    rw [if_pos at'] at same
    refine ⟨_, exec_togglePoint same, by rw [runTask_blockWork]; rfl, ?_⟩
    rw [alertStep_at (s := u.withDue _) stands at']
    exact toggle_values ..
  · refine exec_blockEnd ((finishBlock_of_one due).trans ?_)
    have output (cond : AlertCondition) : s.alert.blockEnd cond =
        { s.alert with flashCounter := s.alert.flashCounter + 1, high := s.alert.plainOutput cond } :=
      if_neg (by simpa [AlertLine.atToggle] using plain)
    simp only [State.alone, runTask, State.alertStep, output, State.endOfBlock, AlertLine.plainOutput]
    cases s.alert.mode <;> cases alertCondition s.monitor <;> rfl

/-! ### The budget -/

theorem included_iff {s : State} {c : Chan} : s.included c = true ↔ s.handed.classes.get c ≠ .excluded := by
  simp [State.included]

section Budget
variable (s : State) (c : Chan) (b : BudgetThreshold) (sum : Nat)

theorem warnStep_monitor :
    (s.warnStep c b sum).monitor =
      s.monitor.set c { s.monitor.get c with warned := (s.monitor.get c).warned || decide (b.warn < sum) } := by
  unfold State.warnStep
  split
  next h => rw [offer_monitor, State.setMonitor_monitor, decide_eq_true h.1, Bool.or_true]
  next h =>
    have same : ((s.monitor.get c).warned || decide (b.warn < sum)) = (s.monitor.get c).warned := by
      cases warned : (s.monitor.get c).warned <;> simp_all
    rw [same, Quad.set_get]

theorem spendStep_monitor :
    (s.spendStep c b sum).monitor =
      s.monitor.set c { s.monitor.get c with spent := (s.monitor.get c).spent || decide (b.b < sum) } := by
  unfold State.spendStep
  split
  next h => rw [offer_monitor, State.setMonitor_monitor, decide_eq_true h.1, Bool.or_true]
  next h =>
    have same : ((s.monitor.get c).spent || decide (b.b < sum)) = (s.monitor.get c).spent := by
      cases spent : (s.monitor.get c).spent <;> simp_all
    rw [same, Quad.set_get]

theorem warnStep_events {n : Nat} (h : TakesEvents s.report (n + 1)) :
    (s.warnStep c b sum).report.events = s.report.events ++
        (if b.warn < sum ∧ (s.monitor.get c).warned = false then
          [⟨some c, s.handed.report.ended, .budgetWarn (budgetUsed (some b) sum) b.limit s.intervalNumber⟩]
        else []) ∧
      TakesEvents (s.warnStep c b sum).report n := by
  unfold State.warnStep
  split
  · obtain ⟨entered, takes⟩ := offer_of_takes (s := s.setMonitor c { s.monitor.get c with warned := true }) h (some c)
      s.handed.report.ended (.budgetWarn (budgetUsed (some b) sum) b.limit s.intervalNumber)
    exact ⟨congrArg (·.report.events) entered, takes⟩
  · obtain ⟨busy, room, masks⟩ := h
    exact ⟨(List.append_nil _).symm, busy, by omega, masks⟩

theorem spendStep_events {n : Nat} (h : TakesEvents s.report (n + 1)) :
    (s.spendStep c b sum).report.events = s.report.events ++
        (if b.b < sum ∧ (s.monitor.get c).spent = false then
          [⟨some c, s.handed.report.ended, .budgetSpent (budgetUsed (some b) sum) b.limit s.intervalNumber⟩]
        else []) := by
  unfold State.spendStep
  split
  · exact congrArg (·.report.events) (offer_of_takes (s := s.setMonitor c { s.monitor.get c with spent := true }) h (some c)
      s.handed.report.ended (.budgetSpent (budgetUsed (some b) sum) b.limit s.intervalNumber)).1
  · exact (List.append_nil _).symm

end Budget

/-! ### Peak events -/

section Peak
variable (s : State) (c : Chan)

theorem peakStep_quiet (h : ∀ p, (s.monitor.get c).peak = some p →
      s.handed.classes.get c = .excluded ∨ (s.results c).peak ≤ p.a) :
    s.peakStep c = s.setMonitor c { s.monitor.get c with peakHoldOff := (s.monitor.get c).peakHoldOff - 1 } := by
  unfold State.peakStep
  dsimp only
  split
  · rfl
  next p found =>
    rw [if_neg]
    rintro ⟨included, above⟩
    obtain excluded | below := h p found
    · simp [State.included, excluded] at included
    · omega

theorem peakStep_reported {p : PeakThreshold} (found : (s.monitor.get c).peak = some p)
    (included : s.handed.classes.get c ≠ .excluded) (above : p.a < (s.results c).peak)
    (expired : (s.monitor.get c).peakHoldOff ≤ 1) :
    s.peakStep c =
      (s.setMonitor c { s.monitor.get c with
        peakHoldOff := 1000, peaksSuppressed := 0, peaksOver := bump max32 (s.monitor.get c).peaksOver }).offer (some c)
        s.handed.report.ended
        (.peak (peakLevel (s.k c) (s.results c).peak) p.limit (s.monitor.get c).peaksSuppressed) := by
  unfold State.peakStep
  dsimp only
  rw [found]
  dsimp only
  rw [if_pos ⟨included_iff.2 included, above⟩, if_pos (by omega)]
  rfl

theorem peakStep_suppressed {p : PeakThreshold} (found : (s.monitor.get c).peak = some p)
    (included : s.handed.classes.get c ≠ .excluded) (above : p.a < (s.results c).peak)
    (holds : 1 < (s.monitor.get c).peakHoldOff) :
    s.peakStep c =
      s.setMonitor c { s.monitor.get c with
        peakHoldOff := (s.monitor.get c).peakHoldOff - 1
        peaksSuppressed := bump 65535 (s.monitor.get c).peaksSuppressed
        peaksOver := bump max32 (s.monitor.get c).peaksOver } := by
  unfold State.peakStep
  dsimp only
  rw [found]
  dsimp only
  rw [if_pos ⟨included_iff.2 included, above⟩, if_neg (by omega)]

end Peak

/-- The budget used in tenths of a percent (R105). -/
theorem budgetUsed_zero (b : BudgetThreshold) (sum : Nat) (h : b.b = 0) :
    budgetUsed (some b) sum = if sum = 0 then 0 else 65535 := if_pos h

theorem budgetUsed_pos (b : BudgetThreshold) (sum : Nat) (h : 0 < b.b) :
    budgetUsed (some b) sum = min 65535 (1000 * sum / b.b) := if_neg (by omega)

/-- Settles O37: the two tests of the budget, and the three cases of the peak step. -/
theorem budgetAndPeakSteps : Obligations.BudgetAndPeakSteps := by
  intro s c
  refine ⟨fun b iv ac due found opened held included => ?_, fun due off => ?_, fun due quiet => ?_,
    fun p due found included above => ?_⟩
  · have step : runTask Config.pick (.budget c) s.alone = (s.alone.warnStep c b ac.sum).spendStep c b ac.sum := by
      rw [runTask, State.budgetStep, show (s.alone.monitor.get c).budget = some b from found]
      dsimp only
      rw [if_pos (included_iff (s := s.alone).2 included)]
      simp only [State.sumOf, State.accOf, State.alone, opened, held]
    refine ⟨_, exec_blockEnd (finishBlock_of_one due), ?_⟩
    rw [step, endOfBlock_monitor, endOfBlock_report]
    refine ⟨?_, budgetUsed (some b) ac.sum, budgetUsed_zero b ac.sum, budgetUsed_pos b ac.sum, fun takes => ?_⟩
    · rw [spendStep_monitor, warnStep_monitor, Quad.set_set, Quad.get_set_same]; rfl
    · obtain ⟨warned, takes⟩ := warnStep_events s.alone c b ac.sum takes
      rw [spendStep_events _ c b ac.sum takes, warned, warnStep_monitor, Quad.get_set_same, warnStep_handed]
      simp only [State.intervalNumber, warnStep_interval, State.alone, opened]
  · have step : runTask Config.pick (.budget c) s.alone = s.alone := by
      rw [runTask, State.budgetStep, show (s.alone.monitor.get c).budget = (s.monitor.get c).budget from rfl]
      obtain none | excluded := off
      · rw [none]
      · cases (s.monitor.get c).budget with
        | none => rfl
        | some b => simp [State.included, State.alone, excluded]
    refine ⟨_, exec_blockEnd (finishBlock_of_one due), ?_⟩
    rw [step]
    exact ⟨rfl, rfl⟩
  · refine ⟨_, exec_blockEnd (finishBlock_of_one due), ?_⟩
    rw [runTask, peakStep_quiet s.alone c quiet]
    exact ⟨rfl, rfl⟩
  · refine ⟨_, exec_blockEnd (finishBlock_of_one due), fun expired => ?_, fun holds => ?_⟩
    · rw [runTask, peakStep_reported s.alone c found included above expired, endOfBlock_monitor, endOfBlock_report, offer_monitor]
      exact ⟨rfl, fun takes => offer_events (s := s.alone.setMonitor c _) takes ..⟩
    · rw [runTask, peakStep_suppressed s.alone c found included above holds]
      exact ⟨rfl, rfl⟩

end Sys2Proof.Machine
end

section
/-! PROOFS. The link: receiving a command (R173 to R175), commands that wait or are refused (R176, R177), and what leaves the
transmitter (R162, R163, R169). -/

namespace Sys2Proof.Machine

/-! ### The receiver state by state -/

/-- With no block end begun a byte changes the receiver alone. -/
theorem exec_byteReceived {s : State} (quiet : s.blockEndBegun = false) (b : Byte) :
    exec (.byteReceived b) s = .next { s with link := s.link.receive b } := by
  change execByteReceived b s = _
  rw [execByteReceived, settle_of_not_begun _ s quiet]

theorem exec_receiveTimeout {s : State} (quiet : s.blockEndBegun = false) :
    exec .receiveTimeout s = .next { s with link := s.link.expire } := by
  change execReceiveTimeout s = _
  rw [execReceiveTimeout, settle_of_not_begun _ s quiet]

theorem exec_frameReceived {s : State} (quiet : s.blockEndBegun = false) (b : Byte) :
    exec (.frameReceived b) s = .next (match s.link.receiver with
      | .check kind tag body sum => { s with link := s.link.complete kind tag body (sum + b) }
      | _ => s) := by
  change execFrameReceived b s = _
  rw [execFrameReceived, settle_of_not_begun _ s quiet] <;> rfl

theorem complete_eq (l : Link) (kind tag : Byte) (body : List Byte) (sum : Byte) :
    l.complete kind tag body sum =
      if sum ≠ 0 then { l with receiver := .hunt, checkErrors := min 65535 (l.checkErrors + 1) }
      else if 4 ≤ l.queue.length then { l with receiver := .hunt, overruns := min 65535 (l.overruns + 1) }
      else { l with receiver := .hunt, queue := l.queue ++ [⟨kind, tag, body⟩] } := rfl

/-- Settles O46: by the receiver's state. -/
theorem receiverFollowsItsTable : Obligations.ReceiverFollowsItsTable := by
  intro s b quiet
  dsimp only
  rw [exec_byteReceived quiet, exec_frameReceived quiet, exec_receiveTimeout quiet]
  refine ⟨fun state => ?_, fun state => ?_, fun sum state => ?_, fun low sum state => ?_, fun len sum state => ?_,
    fun len kind sum state => ?_, fun len kind tag got sum state => ?_, fun kind tag body sum state => ?_⟩
  · rw [Link.receive, Link.expire, state]
    exact ⟨rfl, rfl, rfl⟩
  · rw [Link.expire]
    split
    next hunt => exact absurd hunt state
    next => rfl
  · rw [Link.receive, state]
    exact ⟨rfl, rfl⟩
  · rw [Link.receive, state]
    refine ⟨?_, rfl⟩
    by_cases long : 1000 < low.toNat + 256 * b.toNat
    · simp only [Config.maxBody, long, if_true]
    · simp only [Config.maxBody, long, if_false]
  · rw [Link.receive, state]
    exact ⟨rfl, rfl⟩
  · rw [Link.receive, state]
    exact ⟨rfl, rfl⟩
  · rw [Link.receive, state]
    refine ⟨?_, rfl⟩
    by_cases more : got.length + 1 < len
    · simp only [more, if_true]
    · simp only [more, if_false]
  · rw [Link.receive, state]
    exact ⟨rfl, congrArg (fun link => Host.Outcome.next { s with link := link }) (complete_eq ..)⟩

/-! ### A whole frame -/

/-- A receiver in BODY takes the bytes that are left and waits for the check byte. -/
theorem receive_body (kind tag : Byte) (bytes : List Byte) : ∀ (l : Link) (got : List Byte) (sum : Byte), bytes ≠ [] →
    bytes.foldl Link.receive { l with receiver := .body (got.length + bytes.length) kind tag got sum } =
      { l with receiver := .check kind tag (got ++ bytes) (bytes.foldl (· + ·) sum) } := by
  induction bytes with
  | nil => exact fun _ _ _ h => absurd rfl h
  | cons b bytes ih =>
    intro l got sum _
    rw [List.foldl_cons, Link.receive]
    dsimp only
    cases bytes with
    | nil => rw [if_neg (by simp)]; rfl
    | cons c bytes =>
      have length : got.length + (b :: c :: bytes).length = (got ++ [b]).length + (c :: bytes).length := by
        simp only [List.length_append, List.length_cons, List.length_nil]; omega
      rw [if_pos (by simp), length, ih l (got ++ [b]) (sum + b) (by simp), List.append_assoc]
      rfl

/-- The bytes of a frame up to its check byte leave the receiver waiting for that. -/
theorem receive_inner (l : Link) (kind tag : Byte) (body : List Byte) (short : body.length ≤ 1000)
    (hunt : l.receiver = .hunt) :
    (0xA5 :: frameInner kind tag body).foldl Link.receive l =
      { l with receiver := .check kind tag body ((frameInner kind tag body).foldl (· + ·) 0) } := by
  have length : (byteOf body.length).toNat + 256 * (byteOf (body.length / 256)).toNat = body.length := bytes16 (by omega)
  have start : l.receive 0xA5 = { l with receiver := .length none 0 } := by rw [Link.receive, hunt]; rfl
  have header : [byteOf body.length, byteOf (body.length / 256), kind, tag].foldl Link.receive
      { l with receiver := .length none 0 } =
      { l with
        receiver := afterTag body.length kind tag
          ([byteOf body.length, byteOf (body.length / 256), kind, tag].foldl (· + ·) 0) } := by
    simp only [List.foldl_cons, List.foldl_nil, Link.receive, length]
    rw [if_neg (by simpa [Config.maxBody] using short)]
  have bytes : frameInner kind tag body = [byteOf body.length, byteOf (body.length / 256), kind, tag] ++ body := rfl
  rw [List.foldl_cons, start, bytes, List.foldl_append, List.foldl_append, header, afterTag]
  cases body with
  | nil => rfl
  | cons b body =>
    rw [if_neg (by simp)]
    have taken := receive_body kind tag (b :: body) l [] ([byteOf (b :: body).length, byteOf ((b :: body).length / 256), kind,
      tag].foldl (· + ·) 0) (by simp)
    rw [List.length_nil, Nat.zero_add, List.nil_append] at taken
    exact taken

/-- Bytes taken one after another are taken by the receiver alone. -/
theorem take_bytes (bytes : List Byte) : ∀ s : State, s.blockEndBegun = false →
    bytes.foldl (fun o b => match o with
      | .next s => exec (.byteReceived b) s
      | o => o) (.next s : Host.Outcome State Fault Refusal) =
      .next { s with link := bytes.foldl Link.receive s.link } := by
  induction bytes with
  | nil => exact fun s _ => rfl
  | cons b bytes ih =>
    intro s quiet
    rw [List.foldl_cons, List.foldl_cons]
    dsimp only
    rw [exec_byteReceived quiet]
    exact ih { s with link := s.link.receive b } quiet

theorem foldl_checkByte (l : List Byte) : l.foldl (· + ·) 0 + checkByte l = 0 := by
  unfold checkByte
  exact add_neg_cancel _

theorem checkByte_unique {l : List Byte} {b : Byte} (h : b ≠ checkByte l) : l.foldl (· + ·) 0 + b ≠ 0 := fun zero =>
  h (add_left_cancel (zero.trans (foldl_checkByte l).symm))

/-- Settles O45: the frame up to its check byte, then the completion. -/
theorem receiverTakesWholeFrame : Obligations.ReceiverTakesWholeFrame := by
  intro s kind tag body short quiet hunt take start
  have taken (check : Byte) : take (0xA5 :: frameInner kind tag body ++ [check]) =
      .next { s with link := s.link.complete kind tag body ((frameInner kind tag body).foldl (· + ·) 0 + check) } := by
    refine (take_bytes _ s quiet).trans ?_
    rw [List.foldl_append, receive_inner s.link kind tag body short hunt]
    rfl
  have idle (l : Link) : { s.link with receiver := .hunt } = s.link := by rw [← hunt]
  refine ⟨?_, fun room => ?_, fun full => ?_, fun wrong differs => ?_⟩
  · change (frameInner kind tag body ++ [checkByte (frameInner kind tag body)]).foldl (· + ·) 0 = 0
    rw [List.foldl_append]
    exact foldl_checkByte _
  · refine (taken _).trans ?_
    rw [foldl_checkByte, complete_eq, if_neg (by simp), if_neg (by omega), ← hunt]
  · refine (taken _).trans ?_
    rw [foldl_checkByte, complete_eq, if_neg (by simp), if_pos full, ← hunt]
  · have body' : start.dropLast = 0xA5 :: frameInner kind tag body := by
      change (0xA5 :: frameInner kind tag body ++ [checkByte (frameInner kind tag body)]).dropLast = _
      rw [List.dropLast_concat]
    have last : start.getLast (by simp [start, frameBytes]) = checkByte (frameInner kind tag body) :=
      (List.getLast_cons (by simp)).trans (List.getLast_concat ..)
    rw [body']
    refine (taken _).trans ?_
    rw [complete_eq, if_pos (checkByte_unique (last ▸ differs)), ← hunt]

/-! ### The transmitter -/

theorem enqueue_of_room {q : ReportQueue} {n : Notice} (room : q.events.length < 32) :
    q.enqueue n = { q with events := q.events ++ [n] } := if_pos room

theorem enqueue_of_full {q : ReportQueue} {n : Notice} (full : 32 ≤ q.events.length) :
    q.enqueue n =
      { q with
        events := q.events.tail ++ [n], lostSinceSent := min 255 (q.lostSinceSent + 1)
        eventsLost := min 65535 (q.eventsLost + 1) } := if_neg (Nat.not_lt.2 full)

theorem exec_transmitComplete {s : State} (quiet : s.blockEndBegun = false) :
    exec .transmitComplete s = .next (if s.report.sending.isSome then
      State.transmit { s with report := { s.report with sending := none } } else s) := by
  change execTransmitComplete s = _
  rw [execTransmitComplete, settle_of_not_begun _ s quiet]
  dsimp only
  cases s.report.sending <;> rfl

/-- Settles O47: the choice of the transmitter, as it becomes idle and as an event arrives. -/
theorem transmitCompleteSelects : Obligations.TransmitCompleteSelects := by
  refine ⟨fun s c stamp body => ?_, fun s quiet => ?_⟩
  · dsimp only
    rw [← passes_iff]
    refine ⟨fun barred => offer_barred s c stamp body (by simpa using barred), fun passes => ?_⟩
    have selected := selected_offer s c stamp body passes
    refine ⟨fun room => ?_, fun full => ?_⟩
    · rwa [enqueue_of_room room] at selected
    · rwa [enqueue_of_full full] at selected
  · refine ⟨fun idle => ?_, fun busy => ?_⟩
    · rw [exec_transmitComplete quiet, idle]; rfl
    rw [exec_transmitComplete quiet, if_pos busy]
    obtain ⟨-, choose⟩ := selected_transmit { s with report := { s.report with sending := none } }
    obtain ⟨reply, none⟩ := choose rfl
    refine ⟨fun m rest found => congrArg _ (reply m rest found), fun empty => ?_⟩
    obtain ⟨notice, record, live⟩ := none empty
    refine ⟨fun n rest on found => congrArg _ (notice ⟨on, by rw [found]; simp⟩ n rest found), fun off => ?_⟩
    have noEvent : ¬(s.report.eventOn = true ∧ s.report.events ≠ []) := by
      rintro ⟨on, some⟩
      rcases off with off | off
      · rw [on] at off; cases off
      · exact some off
    refine ⟨fun r rest on found => congrArg _ (record noEvent ⟨on, by rw [found]; simp⟩ r rest found), fun off => ?_⟩
    have noRecord : ¬(s.report.recordOn = true ∧ s.fifo ≠ []) := by
      rintro ⟨on, some⟩
      rcases off with off | off
      · rw [on] at off; cases off
      · exact some off
    obtain ⟨report, idle⟩ := live noEvent noRecord
    exact ⟨fun r found => congrArg _ (report r found), fun empty => congrArg _ (idle empty)⟩

/-! ### Commands in general -/

theorem commandLength_eq_none {kind : Byte} : commandLength kind = none ↔ kind = 0 ∨ 0x1D < kind.toNat := by
  unfold commandLength
  split
  next zero => exact ⟨fun _ => .inl (BitVec.eq_of_toNat_eq zero), fun _ => rfl⟩
  next some =>
    rw [List.getElem?_eq_none_iff]
    simp only [List.length_cons, List.length_nil]
    constructor
    · intro h; right; omega
    · rintro (rfl | h)
      · exact absurd rfl some
      · omega

/-- Any command of a rule is refused for a wrong length. -/
theorem ruleCommand_bad_length {s : State} {i : Instr} {x : RuleCommand} {rest : List Command} (h : ruleCommand i = some x)
    (begins : Begins s ⟨x.kind, x.tag, x.body⟩ rest) (wrong : commandLength x.kind ≠ some x.body.length) :
    ∃ q, Answered s.report q ⟨x.kind + 0x80, x.tag, [2]⟩ ∧ exec i s = .next { s.taken rest with report := q } := by
  obtain ⟨q, answered, run⟩ := runCommand_bad_length Config.pick x.rule begins wrong
  exact ⟨q, answered, (exec_ruleCommand h s).trans (congrArg _ run)⟩

theorem lendMemory_bad_length {s : State} {tag : Byte} {body : List Byte} {rest : List Command}
    (begins : Begins s ⟨0x1A, tag, body⟩ rest) (wrong : commandLength 0x1A ≠ some body.length) :
    ∃ q, Answered s.report q ⟨0x1A + 0x80, tag, [2]⟩ ∧
      exec (.lendMemory tag body) s = .next { s.taken rest with report := q } := by
  obtain ⟨q, answered, same⟩ := reply_answered (s.taken rest) (0x1A + 0x80) tag [2]
  refine ⟨q, answered, (congrArg _ (runCommandThen_of_begins Config.pick lendMemoryRule State.drain begins)).trans ?_⟩
  rw [answer_of_bad_length _ _ wrong]
  exact congrArg _ same

theorem readCapture_bad_length {s : State} {tag : Byte} {body : List Byte} {rest : List Command}
    (begins : Begins s ⟨0x18, tag, body⟩ rest) (wrong : commandLength 0x18 ≠ some body.length) :
    ∃ q, Answered s.report q ⟨0x18 + 0x80, tag, [2]⟩ ∧
      exec (.readCapture tag body) s = .next { s.taken rest with report := q } := by
  obtain ⟨q, answered, same⟩ := reply_answered (s.taken rest) (0x18 + 0x80) tag [2]
  refine ⟨q, answered, ?_⟩
  change execReadCapture tag body s = _
  rw [execReadCapture, settle_of_not_begun _ s begins.1]
  dsimp only
  rw [begin_of_begins begins]
  dsimp only
  rw [State.beginRead, if_neg wrong]
  exact congrArg _ same

/-- The row of a known command is a rule and its reply, but for READ_CAPTURE and LEND_MEMORY. -/
theorem linkCommand_cases {kind : Byte} (tag : Byte) (body : List Byte) (known : commandLength kind ≠ none) :
    (∃ rule, ruleCommand (linkCommand kind tag body) = some ⟨kind, tag, body, rule⟩) ∨
      (kind = 0x18 ∧ linkCommand kind tag body = .readCapture tag body) ∨
      (kind = 0x1A ∧ linkCommand kind tag body = .lendMemory tag body) := by
  have same (n : Nat) (small : n < 256) (h : kind.toNat = n) : kind = BitVec.ofNat 8 n :=
    BitVec.eq_of_toNat_eq (by rw [h, BitVec.toNat_ofNat]; omega)
  rw [Ne, commandLength_eq_none, not_or] at known
  unfold linkCommand Command.row
  dsimp only
  split
  case h_24 h => exact .inr (.inl ⟨same _ (by norm_num) h, rfl⟩)
  case h_26 h => exact .inr (.inr ⟨same _ (by norm_num) h, rfl⟩)
  case h_30 =>
    have zero : kind.toNat ≠ 0 := fun h => known.1 (BitVec.eq_of_toNat_eq h)
    have high := known.2
    simp only [imp_false] at *
    omega
  all_goals
    rename_i h
    rw [same _ (by norm_num) h]
    exact .inl ⟨_, rfl⟩

/-- A known command with a body of another length is answered BAD_LENGTH (R177). -/
theorem exec_bad_length {s : State} {kind tag : Byte} {body : List Byte} {rest : List Command}
    (begins : Begins s ⟨kind, tag, body⟩ rest) (known : commandLength kind ≠ none)
    (wrong : commandLength kind ≠ some body.length) :
    ∃ q, Answered s.report q ⟨kind + 0x80, tag, [2]⟩ ∧
      exec (linkCommand kind tag body) s = .next { s.taken rest with report := q } := by
  obtain ⟨rule, found⟩ | ⟨rfl, row⟩ | ⟨rfl, row⟩ := linkCommand_cases tag body known
  · exact ruleCommand_bad_length found begins wrong
  · rw [row]; exact readCapture_bad_length begins wrong
  · rw [row]; exact lendMemory_bad_length begins wrong

/-- Settles O48: the refusals, and the ways a command that cannot begin waits. -/
theorem commandsWaitOrAreRefused : Obligations.CommandsWaitOrAreRefused := by
  intro s kind tag body rest
  refine ⟨fun len low found wrong begins => ?_, fun unknown begins => ?_, fun quiet waiting => ?_⟩
  · have length : commandLength kind = some len := by
      unfold commandLength
      rw [if_neg (by omega)]
      exact found
    exact exec_bad_length begins (by simp [length]) (by simpa [length, eq_comm] using wrong)
  · obtain ⟨q, answered, same⟩ := reply_answered (s.taken rest) 0x80 tag [1]
    refine ⟨q, answered, ?_⟩
    change execUnknownKind kind tag body s = _
    rw [execUnknownKind, settle_of_not_begun _ s begins.1]
    dsimp only
    rw [if_pos (commandLength_eq_none.2 unknown), begin_of_begins begins]
    exact congrArg _ same
  · dsimp only
    rw [exec_of_waiting quiet (begin_of_waiting waiting)]
    refine ⟨fun stands => ?_, fun new room => ?_, fun new full => ?_⟩ <;>
      obtain ⟨stands', same⟩ | ⟨new', room', same⟩ | ⟨new', full', same⟩ := wait_cases s ⟨kind, tag, body⟩
    · rw [same]
    · exact absurd stands new'
    · exact absurd stands new'
    · exact absurd stands' new
    · rw [same]
    · omega
    · exact absurd stands' new
    · omega
    · rw [same]

end Sys2Proof.Machine
end

section
/-! PROOFS. Bodies read back (R182, R183), and the commands on the staged copy, the clock and the measurement: what each answers
(R61, R75, R80, R87, R88, R99, R165). -/

namespace Sys2Proof.Machine

/-! ### The answer of a rule -/

/-- A command of a rule comes to what its rule answers (R177). -/
theorem exec_answer {s : State} {i : Instr} {kind tag : Byte} {body : List Byte} {rest : List Command}
    {rule : List Byte → State → Answer} (h : ruleCommand i = some ⟨kind, tag, body, rule⟩)
    (begins : Begins s ⟨kind, tag, body⟩ rest) (length : commandLength kind = some body.length) {a : Answer}
    (same : rule body (s.taken rest) = a) :
    ∃ q, Answered a.state.report q ⟨kind + 0x80, tag, a.body⟩ ∧ exec i s = .next { a.state with report := q } := by
  obtain ⟨q, answered, run⟩ := runCommand_answered Config.pick rule begins length
  rw [same] at answered run
  exact ⟨q, answered, (exec_ruleCommand h s).trans (congrArg _ run)⟩

/-! ### Fields read back -/

theorem accept_true {α : Type} {ok : Bool} (h : ok = true) (x : α) : accept ok x = some x := if_pos h

theorem accept_false {α : Type} {ok : Bool} (h : ok = false) (x : α) : accept ok x = none := if_neg (by simp [h])

theorem chanOf_eq_none {n : Nat} (h : n = 0 ∨ 4 < n) : chanOf n = none := by
  unfold chanOf
  split <;> first | rfl | omega

theorem flagOf_eq_none {n : Nat} (h : 1 < n) : flagOf n = none := by
  unfold flagOf
  split <;> first | rfl | omega

theorem number_lt (c : Chan) : c.number < 256 := by cases c <;> decide

/-- A time stamp reads back (R182). -/
theorem stampOf_stampBytes (t : Stamp) (year : t.year < 65536) (month : t.month < 256) (day : t.day < 256)
    (second : t.second < 2 ^ 32) (block : t.block < 65536) : stampOf (stampBytes t) = t := by
  unfold stampOf
  rw [field16_of (n := t.year) rfl rfl year, field8_of (n := t.month) rfl month, field8_of (n := t.day) rfl day,
    field32_of (n := t.second) rfl rfl rfl rfl second, field16_of (n := t.block) rfl rfl block]

/-- What a byte string that holds a channel's settings reads back to, if its values fit their fields (R76, R183). -/
theorem editChannelOf_bytes (c : Nat) (v : ChannelSettings) (k : -32768 ≤ v.k ∧ v.k ≤ 32767) (mainSet : v.mainSet < 256)
    (peakSet : v.peakSet < 256) (offset : -32768 ≤ v.limitOffset ∧ v.limitOffset ≤ 32767) (h0 : v.h0 < 65536)
    (n1 : v.n1 < 256) (n2 : v.n2 < 256) (n3 : v.n3 < 256) (warn : v.warnPercent < 256) (hysteresis : v.hysteresis < 65536)
    (release : v.releaseTime < 65536) :
    editChannelOf (u8 c ++ channelSettingsBytes v) = (chanOf (c % 256)).bind fun d => accept v.valid (d, v) := by
  have number : field8 (u8 c ++ channelSettingsBytes v) 0 = c % 256 := byteOf_toNat c
  have enable : flagOf (field8 (u8 c ++ channelSettingsBytes v) 1) = some v.enable := by
    rw [field8_of (n := v.enable.toNat) rfl (by cases v.enable <;> decide), flagOf_toNat]
  unfold editChannelOf
  rw [number, enable, signed16_of (x := v.k) rfl rfl k, field8_of (n := v.mainSet) rfl mainSet,
    field8_of (n := v.peakSet) rfl peakSet, signed16_of (x := v.limitOffset) rfl rfl offset,
    field16_of (n := v.h0) rfl rfl h0, field8_of (n := v.n1) rfl n1, field8_of (n := v.n2) rfl n2,
    field8_of (n := v.n3) rfl n3, field8_of (n := v.warnPercent) rfl warn, field16_of (n := v.hysteresis) rfl rfl hysteresis,
    field16_of (n := v.releaseTime) rfl rfl release]
  cases chanOf (c % 256) <;> rfl

/-- The same for range settings (R18). -/
theorem editRangeOf_bytes (c : Nat) (v : RangeSettings) (gMin : v.gMin < 256) (gMax : v.gMax < 256) (tImm : v.tImm < 2 ^ 32)
    (tHi : v.tHi < 2 ^ 32) (tLo : v.tLo < 2 ^ 32) (window : v.window < 65536) (holdOff : v.holdOff < 65536)
    (settle : v.settle < 256) :
    editRangeOf (u8 c ++ rangeSettingsBytes v) = (chanOf (c % 256)).bind fun d => accept v.valid (d, v) := by
  have number : field8 (u8 c ++ rangeSettingsBytes v) 0 = c % 256 := byteOf_toNat c
  unfold editRangeOf
  rw [number, field8_of (n := v.gMin) rfl gMin, field8_of (n := v.gMax) rfl gMax,
    field32_of (n := v.tImm) rfl rfl rfl rfl tImm, field32_of (n := v.tHi) rfl rfl rfl rfl tHi,
    field32_of (n := v.tLo) rfl rfl rfl rfl tLo, field16_of (n := v.window) rfl rfl window,
    field16_of (n := v.holdOff) rfl rfl holdOff, field8_of (n := v.settle) rfl settle]
  cases chanOf (c % 256) <;> rfl

/-- The same for a gain-code table with codes of one byte (R19). -/
theorem editGainCodesOf_bytes (c : Chan) (v : GainCodes) (s0 : v.step0 < 256) (s1 : v.step1 < 256) (s2 : v.step2 < 256)
    (s3 : v.step3 < 256) (s4 : v.step4 < 256) :
    editGainCodesOf (u8 c.number ++ gainCodesBytes v) = accept v.valid (c, v) := by
  have number : chanOf (field8 (u8 c.number ++ gainCodesBytes v) 0) = some c := by
    rw [field8_of (n := c.number) rfl (number_lt c), chanOf_number]
  unfold editGainCodesOf
  rw [number, field8_of (n := v.step0) rfl s0, field8_of (n := v.step1) rfl s1, field8_of (n := v.step2) rfl s2,
    field8_of (n := v.step3) rfl s3, field8_of (n := v.step4) rfl s4]

/-- The same for a section of a weighting set (R28). -/
theorem editWeightingOf_bytes {set sec : Nat} {v : Coeffs} (set1 : 1 ≤ set) (set3 : set ≤ 3) (sec1 : 1 ≤ sec) (sec3 : sec ≤ 3)
    (legal : v.legal) : editWeightingOf (editWeightingBody set sec v) = some (set, sec, v) := by
  obtain ⟨b0, b1, b2, a1, a2⟩ := legal
  unfold editWeightingOf
  rw [field8_of (n := set) rfl (by omega), field8_of (n := sec) rfl (by omega), signed32_of (x := v.b0) rfl rfl rfl rfl b0,
    signed32_of (x := v.b1) rfl rfl rfl rfl b1, signed32_of (x := v.b2) rfl rfl rfl rfl b2,
    signed32_of (x := v.a1) rfl rfl rfl rfl a1, signed32_of (x := v.a2) rfl rfl rfl rfl a2]
  exact accept_true (by simp [set1, set3, sec1, sec3]) _

/-- A legal limit with its present byte reads back (R65). -/
theorem entryLimitOf_bytes {b : List Byte} {i : Nat} {l : Option Nat} (legal : limitLegal l)
    (present : b.getD i 0 = byteOf l.isSome.toNat) (low : b.getD (i + 1) 0 = byteOf (l.getD 0))
    (high : b.getD (i + 1 + 1) 0 = byteOf (l.getD 0 / 256)) : entryLimitOf b i = some l := by
  unfold entryLimitOf
  cases l with
  | none =>
    rw [field8_of (n := 0) present (by decide), field16_of (n := 0) low high (by decide)]
    rfl
  | some x =>
    have bound : x ≤ 20000 := legal
    rw [field8_of (n := 1) present (by decide), field16_of (n := x) low high (by omega)]
    exact accept_true (decide_eq_true bound) _

/-- The same for an entry of the schedule (R65). -/
theorem editLimitsOf_bytes {i : Fin 16} {v : ScheduleEntry} (legal : v.legal) :
    editLimitsOf (editLimitsBody i v) = some (i, v) := by
  obtain ⟨start, stop, order, leq, lmax, peak⟩ := legal
  have valid : flagOf (field8 (editLimitsBody i v) 1) = some v.valid := by
    rw [field8_of (n := v.valid.toNat) rfl (by cases v.valid <;> decide), flagOf_toNat]
  have days : v.days.toNat < 128 := v.days.isLt
  have inside : i.val < 16 := i.isLt
  have index : field8 (editLimitsBody i v) 0 = i.val := field8_of rfl (by omega)
  have start' : field16 (editLimitsBody i v) 3 = v.startMinute := field16_of rfl rfl (by omega)
  have stop' : field16 (editLimitsBody i v) 5 = v.endMinute := field16_of rfl rfl (by omega)
  have days' : field8 (editLimitsBody i v) 2 = v.days.toNat := field8_of rfl (by omega)
  unfold editLimitsOf
  rw [valid, entryLimitOf_bytes leq rfl rfl rfl, entryLimitOf_bytes lmax rfl rfl rfl, entryLimitOf_bytes peak rfl rfl rfl]
  simp only [index, start', stop', days', inside, dite_true]
  rw [accept_true (by simp [days, start, stop, order])]
  simp

/-! ### Edits -/

theorem editRule_pending {α : Type} (read : List Byte → Option α) (write : α → Settings → Settings) (body : List Byte)
    {s : State} (pending : s.store.commitPending = true) : editRule read write body s = .refuse s .wrongState := if_pos pending

theorem editRule_none {α : Type} {read : List Byte → Option α} (write : α → Settings → Settings) {body : List Byte}
    {s : State} (free : s.store.commitPending = false) (unread : read body = none) :
    editRule read write body s = .refuse s .badValue := by
  unfold editRule
  rw [if_neg (by simp [free]), unread]

theorem editRule_some {α : Type} {read : List Byte → Option α} (write : α → Settings → Settings) {body : List Byte} {x : α}
    {s : State} (free : s.store.commitPending = false) (found : read body = some x) :
    editRule read write body s = .done { s with store := { s.store with staged := write x s.store.staged } } := by
  unfold editRule
  rw [if_neg (by simp [free]), found]

/-- An edit whose body reads back to legal fields replaces them in the staged copy (R75). -/
theorem edit_replaces {α : Type} {read : List Byte → Option α} {write : α → Settings → Settings} {s : State} {i : Instr}
    {kind tag : Byte} {body : List Byte} {rest : List Command} {x : α}
    (row : ruleCommand i = some ⟨kind, tag, body, editRule read write⟩) (length : commandLength kind = some body.length)
    (free : s.store.commitPending = false) (found : read body = some x) (begins : Begins s ⟨kind, tag, body⟩ rest) :
    ∃ q, Answered s.report q ⟨kind + 0x80, tag, [0]⟩ ∧
      exec i s = .next
        { s.taken rest with report := q, store := { s.store with staged := write x s.store.staged } } :=
  exec_answer row begins length (editRule_some (s := s.taken rest) write free found)

theorem setSection_sectionOf (w : WeightingSet) {sec : Nat} (low : 1 ≤ sec) (high : sec ≤ 3) (v : Coeffs) :
    (match sec with
      | 1 => (w.setSection sec v).first
      | 2 => (w.setSection sec v).second
      | _ => (w.setSection sec v).third) = v := by
  interval_cases sec <;> rfl

/-- The one section of a weighting set that an edit replaces, told apart from the other eight (R28). -/
theorem writeWeighting_sectionOf (x : Settings) {set sec : Nat} (set1 : 1 ≤ set) (set3 : set ≤ 3) (sec1 : 1 ≤ sec)
    (sec3 : sec ≤ 3) (v : Coeffs) :
    (writeWeighting (set, sec, v) x).sectionOf set sec = v ∧
      ∀ set' sec', 1 ≤ set' → set' ≤ 3 → 1 ≤ sec' → sec' ≤ 3 → (set', sec') ≠ (set, sec) →
        (writeWeighting (set, sec, v) x).sectionOf set' sec' = x.sectionOf set' sec' := by
  refine ⟨by interval_cases set <;> interval_cases sec <;> rfl, fun set' sec' low high low' high' other => ?_⟩
  interval_cases set <;> interval_cases sec <;> interval_cases set' <;> interval_cases sec' <;>
    first | rfl | exact absurd rfl other

/-- Settles O51: each edit's body reads back to its fields. -/
theorem editsReplaceStaged : Obligations.EditsReplaceStaged := by
  intro s tag rest free
  refine ⟨fun c v valid begins => ?_, fun c v valid begins => ?_, fun c v valid begins => ?_,
    fun set sec v set1 set3 sec1 sec3 legal => ?_, fun i v legal begins => ?_, fun base factor hb low high begins => ?_,
    fun mode polarity guard short begins => ?_⟩
  · refine edit_replaces (read := editChannelOf) (write := writeChannel) (x := (c, v)) rfl rfl free ?_ begins
    have fits := valid
    simp only [ChannelSettings.valid, Bool.and_eq_true, decide_eq_true_eq] at fits
    rw [editChannelOf_bytes c.number v (by omega) (by omega) (by omega) (by omega) (by omega) (by omega) (by omega) (by omega)
      (by omega) (by omega) (by omega), Nat.mod_eq_of_lt (number_lt c), chanOf_number]
    exact accept_true valid _
  · refine edit_replaces (read := editRangeOf) (write := writeRange) (x := (c, v)) rfl rfl free ?_ begins
    have fits := valid
    simp only [RangeSettings.valid, Bool.and_eq_true, decide_eq_true_eq] at fits
    rw [editRangeOf_bytes c.number v (by omega) (by omega) (by omega) (by omega) (by omega) (by omega) (by omega) (by omega),
      Nat.mod_eq_of_lt (number_lt c), chanOf_number]
    exact accept_true valid _
  · refine edit_replaces (read := editGainCodesOf) (write := writeGainCodes) (x := (c, v)) rfl rfl free ?_ begins
    have fits := valid
    simp only [GainCodes.valid, Bool.and_eq_true, decide_eq_true_eq] at fits
    rw [editGainCodesOf_bytes c v (by omega) (by omega) (by omega) (by omega) (by omega)]
    exact accept_true valid _
  · obtain ⟨same, others⟩ := writeWeighting_sectionOf s.store.staged set1 set3 sec1 sec3 v
    refine ⟨writeWeighting (set, sec, v) s.store.staged, fun begins => ?_, ?_, same, others⟩
    · exact edit_replaces (read := editWeightingOf) (write := writeWeighting) (x := (set, sec, v)) rfl rfl free
        (editWeightingOf_bytes set1 set3 sec1 sec3 legal) begins
    · interval_cases set <;> rfl
  · exact edit_replaces (read := editLimitsOf) (write := writeLimits) (x := (i, v)) rfl rfl free (editLimitsOf_bytes legal)
      begins
  · refine edit_replaces (read := editIntervalOf) (write := writeInterval) (x := (base, factor)) rfl rfl free ?_ begins
    unfold editIntervalOf
    rw [field8_of (n := base) rfl (by omega), field8_of (n := factor) rfl (by omega)]
    exact accept_true (by simp [low, high, or_assoc, hb]) _
  · refine edit_replaces (read := editActivityOf) (write := writeActivity) (x := (mode, polarity, guard)) rfl rfl free ?_
      begins
    have mode' : activityModeOf (field8 (editActivityBody mode polarity guard) 0) = some mode := by
      rw [field8_of (n := mode.code) rfl (by cases mode <;> decide), activityModeOf_code]
    have flag' : flagOf (field8 (editActivityBody mode polarity guard) 1) = some polarity := by
      rw [field8_of (n := polarity.toNat) rfl (by cases polarity <;> decide), flagOf_toNat]
    unfold editActivityOf
    rw [mode', flag', field16_of (n := guard) rfl rfl (by omega)]
    exact accept_true (by simp [short]) _

/-! ### Edits refused -/

theorem chanOf_range {n : Nat} {c : Chan} (h : chanOf n = some c) : 1 ≤ n ∧ n ≤ 4 := by
  by_contra bad
  rw [chanOf_eq_none (by omega)] at h
  exact nomatch h

theorem flagOf_range {n : Nat} {f : Bool} (h : flagOf n = some f) : n ≤ 1 := by
  by_contra bad
  rw [flagOf_eq_none (by omega)] at h
  exact nomatch h

theorem activityModeOf_range {n : Nat} {m : ActivityMode} (h : activityModeOf n = some m) : n ≤ 2 := by
  unfold activityModeOf at h
  split at h
  all_goals first | omega | exact nomatch h

/-- The fields that the bytes of an accepted entry hold (R65). -/
theorem editLimitsOf_fields {b : List Byte} {x : Fin 16 × ScheduleEntry} (h : editLimitsOf b = some x) :
    field8 b 0 < 16 ∧ field8 b 1 ≤ 1 ∧ field8 b 2 < 128 ∧ field16 b 3 ≤ 1439 ∧ field16 b 5 ≤ 1440 ∧
      field16 b 3 < field16 b 5 ∧ entryLimitOf b 7 ≠ none ∧ entryLimitOf b 10 ≠ none ∧ entryLimitOf b 13 ≠ none := by
  unfold editLimitsOf at h
  split at h
  next valid leq lmax peak =>
    split at h
    next index =>
      obtain ⟨legal, -⟩ := accept_eq_some h
      simp only [Bool.and_eq_true, decide_eq_true_eq] at legal
      obtain ⟨⟨⟨days, start⟩, stop⟩, order⟩ := legal
      exact ⟨index, flagOf_range valid, days, start, stop, order, by simp [leq], by simp [lmax], by simp [peak]⟩
    next => exact nomatch h
  next => exact nomatch h

/-- A limit present with more than 20,000 is refused (R65). -/
theorem entryLimitOf_high {b : List Byte} {i x : Nat} (present : b.getD i 0 = byteOf 1) (low : b.getD (i + 1) 0 = byteOf x)
    (high : b.getD (i + 1 + 1) 0 = byteOf (x / 256)) (above : 20000 < x) (fits : x < 65536) : entryLimitOf b i = none := by
  unfold entryLimitOf
  rw [field8_of (n := 1) present (by decide), field16_of (n := x) low high fits]
  exact accept_false (decide_eq_false (by omega)) _

/-- The bytes of an entry outside its constraints are refused (R65). -/
theorem editLimitsOf_eq_none {i : Byte} {v : ScheduleEntry} (start : v.startMinute < 65536) (stop : v.endMinute < 65536)
    (bad : 1439 < v.startMinute ∨ 1440 < v.endMinute ∨ v.endMinute ≤ v.startMinute ∨
      ∃ x, (v.leq = some x ∨ v.lmax = some x ∨ v.peak = some x) ∧ 20000 < x ∧ x < 65536) :
    editLimitsOf (i :: scheduleEntryBytes v) = none := by
  refine Option.eq_none_iff_forall_ne_some.2 fun x h => ?_
  obtain ⟨-, -, -, start', stop', order, leq, lmax, peak⟩ := editLimitsOf_fields h
  rw [field16_of (n := v.startMinute) rfl rfl start] at start' order
  rw [field16_of (n := v.endMinute) rfl rfl stop] at stop' order
  rcases bad with bad | bad | bad | ⟨x, found | found | found, above, fits⟩
  · omega
  · omega
  · omega
  · obtain ⟨_, _, _, _, _, _, _⟩ := v
    cases found
    exact leq (entryLimitOf_high rfl rfl rfl above fits)
  · obtain ⟨_, _, _, _, _, _, _⟩ := v
    cases found
    exact lmax (entryLimitOf_high rfl rfl rfl above fits)
  · obtain ⟨_, _, _, _, _, _, _⟩ := v
    cases found
    exact peak (entryLimitOf_high rfl rfl rfl above fits)

/-- An edit whose rule refuses it changes nothing but the reply queue (R75, R177). -/
theorem edit_refused {α : Type} {read : List Byte → Option α} {write : α → Settings → Settings} {s : State}
    {kind tag : Byte} {body : List Byte} {rest : List Command} {status : Status}
    (row : ruleCommand (linkCommand kind tag body) = some ⟨kind, tag, body, editRule read write⟩)
    (begins : Begins s ⟨kind, tag, body⟩ rest) (length : commandLength kind = some body.length)
    (refuses : editRule read write body (s.taken rest) = .refuse (s.taken rest) status) :
    ∃ q, Answered s.report q ⟨kind + 0x80, tag, u8 status.code⟩ ∧
      exec (linkCommand kind tag body) s = .next { s.taken rest with report := q } :=
  exec_answer row begins length refuses

theorem edit_unread {α : Type} {read : List Byte → Option α} {write : α → Settings → Settings} {s : State}
    {kind tag : Byte} {body : List Byte} {rest : List Command}
    (row : ruleCommand (linkCommand kind tag body) = some ⟨kind, tag, body, editRule read write⟩)
    (begins : Begins s ⟨kind, tag, body⟩ rest) (length : commandLength kind = some body.length)
    (free : s.store.commitPending = false) (unread : ∀ x, read body ≠ some x) :
    ∃ q, Answered s.report q ⟨kind + 0x80, tag, [3]⟩ ∧
      exec (linkCommand kind tag body) s = .next { s.taken rest with report := q } :=
  edit_refused row begins length (editRule_none (s := s.taken rest) write free (Option.eq_none_iff_forall_ne_some.2 unread))

/-- Settles O52: each edit's body does not read back, or is not read at all. -/
theorem editsRefused : Obligations.EditsRefused := by
  intro s kind tag body rest begins
  dsimp only
  refine ⟨fun pending ⟨len, member, length⟩ => ?_, fun free => ⟨fun h length bad => ?_, fun h length bad => ?_,
    fun h length bad => ?_, fun h length bad => ?_, fun h length bad => ?_, fun h length bad => ?_, fun h length bad => ?_⟩⟩
  · subst length
    have kinds : ∀ n l, (kind.toNat, body.length) = (n, l) → n < 256 → kind = BitVec.ofNat 8 n ∧ body.length = l := by
      intro n l h small
      obtain ⟨h, h'⟩ := Prod.mk.inj h
      exact ⟨BitVec.eq_of_toNat_eq (by rw [h, BitVec.toNat_ofNat]; omega), h'⟩
    simp only [List.mem_cons, List.not_mem_nil, or_false] at member
    rcases member with h | h | h | h | h | h | h <;> obtain ⟨rfl, length⟩ := kinds _ _ h (by decide)
    · exact edit_refused rfl begins (by rw [length]; rfl) (editRule_pending editChannelOf writeChannel body pending)
    · exact edit_refused rfl begins (by rw [length]; rfl) (editRule_pending editRangeOf writeRange body pending)
    · exact edit_refused rfl begins (by rw [length]; rfl) (editRule_pending editGainCodesOf writeGainCodes body pending)
    · exact edit_refused rfl begins (by rw [length]; rfl) (editRule_pending editWeightingOf writeWeighting body pending)
    · exact edit_refused rfl begins (by rw [length]; rfl) (editRule_pending editLimitsOf writeLimits body pending)
    · exact edit_refused rfl begins (by rw [length]; rfl) (editRule_pending editIntervalOf writeInterval body pending)
    · exact edit_refused rfl begins (by rw [length]; rfl) (editRule_pending editActivityOf writeActivity body pending)
  · subst h
    refine edit_unread (read := editChannelOf) (write := writeChannel) rfl begins (by rw [length]; rfl) free fun x h => ?_
    rcases bad with number | enable | ⟨c, v, rfl, invalid, k, sets⟩
    · unfold editChannelOf at h
      rw [chanOf_eq_none (n := field8 body 0) number] at h
      exact nomatch h
    · unfold editChannelOf at h
      rw [flagOf_eq_none (n := field8 body 1) enable] at h
      cases found : chanOf (field8 body 0) <;> rw [found] at h <;> cases h
    · obtain ⟨k', mainSet, peakSet, offset, offset', h0, n1, n2, n3, warn, hysteresis, release⟩ := sets
      rw [editChannelOf_bytes c v ⟨k, k'⟩ mainSet peakSet ⟨offset, offset'⟩ h0 n1 n2 n3 warn hysteresis release] at h
      obtain ⟨d, -, h⟩ := Option.bind_eq_some_iff.1 h
      rw [accept_false invalid] at h
      exact nomatch h
  · subst h
    refine edit_unread (read := editRangeOf) (write := writeRange) rfl begins (by rw [length]; rfl) free fun x h => ?_
    rcases bad with number | ⟨c, v, rfl, invalid, gMin, gMax, tImm, tHi, tLo, window, holdOff, settle⟩
    · unfold editRangeOf at h
      rw [chanOf_eq_none (n := field8 body 0) number] at h
      exact nomatch h
    · rw [editRangeOf_bytes c v gMin gMax tImm tHi tLo window holdOff settle] at h
      obtain ⟨d, -, h⟩ := Option.bind_eq_some_iff.1 h
      rw [accept_false invalid] at h
      exact nomatch h
  · subst h
    refine edit_unread (read := editGainCodesOf) (write := writeGainCodes) rfl begins (by rw [length]; rfl) free
      fun x h => ?_
    match body, length with
    | [b0, b1, b2, b3, b4, b5], _ =>
      unfold editGainCodesOf at h
      rcases bad with number | ⟨b, member, above⟩
      · rw [chanOf_eq_none (n := field8 [b0, b1, b2, b3, b4, b5] 0) number] at h
        exact nomatch h
      · cases found : chanOf (field8 [b0, b1, b2, b3, b4, b5] 0) with
        | none => rw [found] at h; exact nomatch h
        | some c =>
          rw [found] at h
          obtain ⟨legal, -⟩ := accept_eq_some h
          simp only [GainCodes.valid, field8, List.getD_cons_succ, List.getD_cons_zero, Bool.and_eq_true,
            decide_eq_true_eq] at legal
          simp only [List.tail_cons, List.mem_cons, List.not_mem_nil, or_false] at member
          rcases member with rfl | rfl | rfl | rfl | rfl <;> omega
  · subst h
    refine edit_unread (read := editWeightingOf) (write := writeWeighting) rfl begins (by rw [length]; rfl) free
      fun x h => ?_
    obtain ⟨legal, -⟩ := accept_eq_some h
    obtain ⟨b, member, outside⟩ := bad
    match body, length with
    | b0 :: b1 :: tail, _ =>
      simp only [field8, List.getD_cons_succ, List.getD_cons_zero, Bool.and_eq_true, decide_eq_true_eq] at legal
      simp only [List.take_succ_cons, List.take_zero, List.mem_cons, List.not_mem_nil, or_false] at member
      rcases member with rfl | rfl <;> omega
  · subst h
    refine edit_unread (read := editLimitsOf) (write := writeLimits) rfl begins (by rw [length]; rfl) free fun x h => ?_
    obtain ⟨index, valid, days, -⟩ := editLimitsOf_fields h
    unfold field8 at index valid days
    rcases bad with bad | bad | bad | ⟨i, v, rfl, start, stop, bad⟩
    · omega
    · omega
    · omega
    · rw [editLimitsOf_eq_none start stop bad] at h
      exact nomatch h
  · subst h
    refine edit_unread (read := editIntervalOf) (write := writeInterval) rfl begins (by rw [length]; rfl) free fun x h => ?_
    obtain ⟨legal, -⟩ := accept_eq_some h
    simp only [Bool.and_eq_true, Bool.or_eq_true, beq_iff_eq, decide_eq_true_eq] at legal
    unfold field8 at legal
    rcases bad with ⟨one, ten, sixty⟩ | bad | bad
    · bv_omega
    · omega
    · omega
  · subst h
    refine edit_unread (read := editActivityOf) (write := writeActivity) rfl begins (by rw [length]; rfl) free fun x h => ?_
    unfold editActivityOf at h
    split at h
    next mode polarity =>
      obtain ⟨legal, -⟩ := accept_eq_some h
      have mode' := activityModeOf_range mode
      have polarity' := flagOf_range polarity
      have legal : field8 body 2 + 256 * field8 body 3 ≤ 5000 := of_decide_eq_true legal
      unfold field8 at legal mode' polarity'
      rcases bad with bad | bad | bad <;> omega
    next => exact nomatch h

/-! ### Clock and measurement -/

/-- Settles O54: by the measurement state and its flags. -/
theorem setTimeHoldResume : Obligations.SetTimeHoldResume := by
  intro s tag rest
  refine ⟨fun u year month day second block => ⟨fun valid begins => ?_, fun invalid begins => ?_⟩,
    fun phase => ⟨fun begins => ?_, fun begins => ?_⟩, fun phase => ⟨fun begins => ?_, fun hold begins => ?_,
    fun hold opening begins => ?_, fun hold opening begins => ?_⟩, fun phase => ⟨fun begins => ?_, fun begins => ?_⟩⟩
  · refine exec_answer (i := .setTime tag (stampBytes u)) (rule := setTimeRule)
      (a := .done { s.taken rest with clock := { s.clock with pendingLoad := some u } }) rfl begins rfl ?_
    unfold setTimeRule setTimeOf
    rw [stampOf_stampBytes u year month day second block, accept_true valid]
    rfl
  · refine exec_answer (i := .setTime tag (stampBytes u)) (rule := setTimeRule) (a := .refuse (s.taken rest) .badValue) rfl begins rfl ?_
    unfold setTimeRule setTimeOf
    rw [stampOf_stampBytes u year month day second block, accept_false invalid]
  · refine exec_answer (rule := holdRule) (a := .refuse (s.taken rest) .wrongState) rfl begins rfl ?_
    simp only [holdRule, taken_acc, phase]
  · refine exec_answer (rule := resumeRule) (a := .refuse (s.taken rest) .wrongState) rfl begins rfl ?_
    simp only [resumeRule, taken_acc, phase, if_true]
  · refine exec_answer (rule := holdRule)
      (a := .done { s.taken rest with acc := { s.acc with holdPending := true } }) rfl begins rfl ?_
    simp only [holdRule, taken_acc, phase]
  · refine exec_answer (rule := resumeRule)
      (a := .done { s.taken rest with acc := { s.acc with holdPending := false } }) rfl begins rfl ?_
    simp [resumeRule, Accumulator.resume, phase, hold]
  · refine exec_answer (rule := resumeRule) (a := .done (s.taken rest)) rfl begins rfl ?_
    simp [resumeRule, Accumulator.resume, phase, hold, opening]
    rfl
  · refine exec_answer (rule := resumeRule)
      (a := .done { s.taken rest with acc := { s.acc with restartPending := true } }) rfl begins rfl ?_
    simp [resumeRule, Accumulator.resume, phase, hold, opening]
  · refine exec_answer (rule := holdRule)
      (a := .done { s.taken rest with acc := { s.acc with openingPending := false } }) rfl begins rfl ?_
    simp only [holdRule, taken_acc, phase]
  · refine exec_answer (rule := resumeRule)
      (a := .done { s.taken rest with acc := { s.acc with openingPending := true } }) rfl begins rfl ?_
    simp [resumeRule, Accumulator.resume, phase]

/-! ### Records and events -/

theorem recordBytes_length (r : IntervalRecord) : (recordBytes r).length = 116 := by
  unfold recordBytes
  simp only [List.length_append]
  rfl

/-- The body of an answer that carries a command out is 0 and what follows (R177). -/
theorem body_of_ok (s : State) (l : List Byte) : (⟨s, .ok, l⟩ : Answer).body = 0 :: l := rfl

/-- Settles O56: by what the FIFO and the event queue hold. -/
theorem readRecordAndEvent : Obligations.ReadRecordAndEvent := by
  intro s tag rest
  refine ⟨fun begins => ⟨fun r rs found => ⟨recordBytes_length r, ?_⟩, fun empty => ?_⟩,
    fun begins => ⟨fun n ns found => ?_, fun empty => ?_⟩⟩
  · rw [← body_of_ok { s.taken rest with fifo := rs }]
    refine exec_answer (rule := readRecordRule) (a := ⟨{ s.taken rest with fifo := rs }, .ok, recordBytes r⟩) rfl begins rfl ?_
    simp only [readRecordRule, taken_fifo, found]
  · refine exec_answer (rule := readRecordRule) (a := .refuse (s.taken rest) .empty) rfl begins rfl ?_
    simp only [readRecordRule, taken_fifo, empty]
  · rw [← body_of_ok { s.taken rest with report := s.report.afterNotice ns }]
    refine exec_answer (rule := readEventRule)
      (a := ⟨{ s.taken rest with report := s.report.afterNotice ns }, .ok, noticeBytes n s.report.lostSinceSent⟩) rfl begins
      rfl ?_
    simp only [readEventRule, taken_report, found]
  · refine exec_answer (rule := readEventRule) (a := .refuse (s.taken rest) .empty) rfl begins rfl ?_
    simp only [readEventRule, taken_report, empty]

end Sys2Proof.Machine
end

section
/-! PROOFS. What the queries answer (R82, R143, R168, R179, R184). -/

namespace Sys2Proof.Machine

/-! ### The STATUS reply (R179) -/

theorem byteOf_flag (b : Bool) : byteOf b.toNat = if b then 1 else 0 := by cases b <;> rfl

theorem itemField_length {items : List LiveItem} (h : items.length ≤ 8) : (itemField items).length = 8 := by
  have codes : (items.flatMap fun i => u8 i.code).length = items.length := by
    induction items with
    | nil => rfl
    | cons i rest ih => exact congrArg (· + 1) (ih (by simp only [List.length_cons] at h; omega))
  rw [itemField, List.length_append, codes, List.length_map, List.length_range]
  omega

theorem statusClock_length (s : State) : (statusClock s).length = 25 := by
  unfold statusClock
  cases s.clock.pendingLoad <;> rfl

theorem statusIntervals_length (s : State) : (statusIntervals s).length = 11 := by
  unfold statusIntervals
  cases s.interval <;> rfl

theorem statusAlert_length (s : State) : (statusAlert s).length = 11 := by
  unfold statusAlert
  cases s.alert.pendingSetting <;> rfl

theorem statusCheck_length (s : State) : (statusCheck s).length = 28 := by
  unfold statusCheck
  cases s.check.phase <;> cases s.check.params <;> cases s.check.last <;> rfl

theorem statusReport_length {s : State} (h : s.report.items.length ≤ 8) : (statusReport s).length = 23 := by
  have field := itemField_length h
  simp only [statusReport, List.length_append, u8_length, u16_length, flag_length, field]

/-- A field of the second part of a body, from the length of the first. -/
theorem getD_append_past {l l' : List Byte} {n : Nat} (i : Nat) (h : l.length = n) :
    (l ++ l').getD (n + i) 0 = l'.getD i 0 := by
  subst h
  rw [List.getD_append_right _ _ _ _ (Nat.le_add_right _ _), Nat.add_sub_cancel_left]

/-- The groups of the STATUS reply, each from its offset on. -/
theorem statusBytes_groups (s : State) (items : s.report.items.length ≤ 8) :
    (statusBytes s).length = 111 ∧
      (∀ i < 1, (statusBytes s).getD i 0 = (statusPort s).getD i 0) ∧
      (∀ i < 25, (statusBytes s).getD (1 + i) 0 = (statusClock s).getD i 0) ∧
      (∀ i < 11, (statusBytes s).getD (26 + i) 0 = (statusIntervals s).getD i 0) ∧
      (∀ i < 11, (statusBytes s).getD (37 + i) 0 = (statusAlert s).getD i 0) ∧
      (∀ i < 28, (statusBytes s).getD (48 + i) 0 = (statusCheck s).getD i 0) ∧
      (∀ i < 4, (statusBytes s).getD (76 + i) 0 = (statusCapture s).getD i 0) ∧
      (∀ i < 23, (statusBytes s).getD (80 + i) 0 = (statusReport s).getD i 0) ∧
      ∀ i < 8, (statusBytes s).getD (103 + i) 0 = (statusLink s).getD i 0 := by
  have port : (statusPort s).length = 1 := rfl
  have clock := statusClock_length s
  have intervals := statusIntervals_length s
  have alert := statusAlert_length s
  have check := statusCheck_length s
  have capture : (statusCapture s).length = 4 := rfl
  have report := statusReport_length items
  have link : (statusLink s).length = 8 := rfl
  have nested : statusBytes s = statusPort s ++ (statusClock s ++ (statusIntervals s ++ (statusAlert s ++ (statusCheck s ++
      (statusCapture s ++ (statusReport s ++ statusLink s)))))) := by simp only [statusBytes, List.append_assoc]
  rw [nested]
  refine ⟨by simp only [List.length_append, port, clock, intervals, alert, check, capture, report, link], fun i h => ?_,
    fun i h => ?_, fun i h => ?_, fun i h => ?_, fun i h => ?_, fun i h => ?_, fun i h => ?_, fun i h => ?_⟩
  · rw [List.getD_append _ _ _ _ (by omega)]
  · rw [getD_append_past _ port, List.getD_append _ _ _ _ (by omega)]
  · rw [show 26 + i = 1 + (25 + i) by omega, getD_append_past _ port, getD_append_past _ clock,
      List.getD_append _ _ _ _ (by omega)]
  · rw [show 37 + i = 1 + (25 + (11 + i)) by omega, getD_append_past _ port, getD_append_past _ clock,
      getD_append_past _ intervals, List.getD_append _ _ _ _ (by omega)]
  · rw [show 48 + i = 1 + (25 + (11 + (11 + i))) by omega, getD_append_past _ port, getD_append_past _ clock,
      getD_append_past _ intervals, getD_append_past _ alert, List.getD_append _ _ _ _ (by omega)]
  · rw [show 76 + i = 1 + (25 + (11 + (11 + (28 + i)))) by omega, getD_append_past _ port, getD_append_past _ clock,
      getD_append_past _ intervals, getD_append_past _ alert, getD_append_past _ check, List.getD_append _ _ _ _ (by omega)]
  · rw [show 80 + i = 1 + (25 + (11 + (11 + (28 + (4 + i))))) by omega, getD_append_past _ port,
      getD_append_past _ clock, getD_append_past _ intervals, getD_append_past _ alert, getD_append_past _ check, getD_append_past _ capture, List.getD_append _ _ _ _ (by omega)]
  · rw [show 103 + i = 1 + (25 + (11 + (11 + (28 + (4 + (23 + i)))))) by omega, getD_append_past _ port,
      getD_append_past _ clock, getD_append_past _ intervals, getD_append_past _ alert, getD_append_past _ check, getD_append_past _ capture, getD_append_past _ report]

/-! ### The capture list (R184) -/

/-- Bytes of one size for each item with a value, and none for any other. -/
theorem length_flatten_filterMap {ι : Type} {f : ι → Option (List Byte)} {value : ι → Option Nat} {n size : Nat}
    (hit : ∀ i, value i = some n → ∃ b, f i = some b ∧ b.length = size) (miss : ∀ i, value i ≠ some n → f i = none)
    (l : List ι) : (l.filterMap f).flatten.length = size * (l.filterMap value).count n := by
  induction l with
  | nil => rfl
  | cons i rest ih =>
    by_cases h : value i = some n
    · obtain ⟨b, found, length⟩ := hit i h
      rw [List.filterMap_cons_some found, List.filterMap_cons_some h, List.flatten_cons, List.length_append, length, ih,
        List.count_cons_self, Nat.mul_succ, Nat.add_comm]
    · rw [List.filterMap_cons_none (miss i h), ih]
      cases other : value i with
      | none => rw [List.filterMap_cons_none other]
      | some m => rw [List.filterMap_cons_some other, List.count_cons_of_ne (by rintro rfl; exact h other)]

/-- The captures with an age have 31 bytes each in the list. -/
theorem listedAt_length (k : Capture) (age : Nat) :
    (k.listedAt age).flatten.length = 31 * (k.held.map (·.age)).count age := by
  have ages : k.held.map (·.age) = (List.finRange 16).filterMap fun i => k.regions[i].descriptor.map (·.age) := by
    have regions : k.regions.toList = (List.finRange 16).map fun i => k.regions[i] :=
      List.ext_getElem (by simp) (by simp)
    rw [Capture.held, regions, List.filterMap_map, List.map_filterMap]
    rfl
  rw [ages]
  refine length_flatten_filterMap (fun i same => ?_) (fun i other => ?_) _
  · cases role : k.regions[i] with
    | free => rw [role] at same; cases same
    | ring c => rw [role] at same; cases same
    | recording d tail =>
      rw [role] at same
      exact ⟨_, if_pos (Option.some.inj same), descriptorBytes_length _ _ _ _⟩
    | stored d =>
      rw [role] at same
      exact ⟨_, if_pos (Option.some.inj same), descriptorBytes_length _ _ _ _⟩
  · cases role : k.regions[i] with
    | free => rfl
    | ring c => rfl
    | recording d tail =>
      rw [role] at other
      exact if_neg fun same => other (congrArg some same)
    | stored d =>
      rw [role] at other
      exact if_neg fun same => other (congrArg some same)

/-- With the ages 1 to their count each capture held stands once in the list. -/
theorem listed_length {k : Capture} (ages : (k.held.map (·.age)).Perm ((List.range k.held.length).map (· + 1))) :
    ((List.range 16).flatMap fun n => (k.listedAt (n + 1)).flatten).length = 31 * k.held.length := by
  have few : k.held.length ≤ 16 := by
    have := List.length_filterMap_le Role.descriptor k.regions.toList
    rwa [Vector.length_toList] at this
  have total : ∀ m ≤ 16, ((List.range 16).map fun n => 31 * ((List.range m).map (· + 1)).count (n + 1)).sum = 31 * m := by
    decide
  rw [List.length_flatMap]
  simp only [listedAt_length, ages.count_eq]
  exact total _ few

/-! ### The groups of settings (R184) -/

theorem scheduleBytes_length (x : Settings) : (scheduleBytes x).length = 240 := by
  unfold scheduleBytes
  rw [List.length_flatMap]
  simp only [scheduleEntryBytes_length, List.map_const', List.sum_replicate, Vector.length_toList]
  rfl

/-- Each group of settings has its length (R184). -/
theorem groupBytes_some {g : Nat} (h : g ≤ 6) (x : Settings) :
    ∃ b, groupBytes g x = some b ∧ b.length = [6, 41, 41, 41, 41, 180, 240].getD g 0 := by
  interval_cases g
  · exact ⟨_, rfl, generalBytes_length x⟩
  · exact ⟨_, rfl, channelGroupBytes_length x .ch1⟩
  · exact ⟨_, rfl, channelGroupBytes_length x .ch2⟩
  · exact ⟨_, rfl, channelGroupBytes_length x .ch3⟩
  · exact ⟨_, rfl, channelGroupBytes_length x .ch4⟩
  · exact ⟨_, rfl, weightingBytes_length x⟩
  · exact ⟨_, rfl, scheduleBytes_length x⟩

theorem groupBytes_none {g : Nat} (h : 7 ≤ g) (x : Settings) : groupBytes g x = none := by
  unfold groupBytes
  split <;> first | rfl | omega

/-- Settles O50: each query's answer from the lengths of its parts. -/
theorem queriesAnswer : Obligations.QueriesAnswer := by
  intro s tag rest
  refine ⟨fun begins items => ⟨0 :: statusBytes (s.taken rest), ?_, ?_⟩, fun begins => ?_,
    fun g begins => ⟨fun high => ?_, fun low => ?_⟩, fun begins => ⟨_, ?_, fun ages => listed_length ages⟩⟩
  · rw [← body_of_ok (s.taken rest)]
    exact exec_answer (rule := statusRule) rfl begins rfl rfl
  · obtain ⟨length, port, clock, intervals, alert, check, capture, report, link⟩ := statusBytes_groups (s.taken rest) items
    have stamp : ((0 :: statusBytes (s.taken rest)).drop 3).take 10 = stampBytes s.clock.now := rfl
    generalize statusBytes (s.taken rest) = b at *
    refine ⟨congrArg (· + 1) length, rfl, (port 0 (by decide)).trans (byteOf_flag _),
      (clock 0 (by decide)).trans (byteOf_flag _), stamp, clock 11 (by decide), clock 12 (by decide),
      (clock 13 (by decide)).trans ?_, intervals 0 (by decide), (intervals 7 (by decide)).trans ?_,
      (intervals 8 (by decide)).trans ?_, alert 0 (by decide), (alert 10 (by decide)).trans ?_, check 0 (by decide),
      capture 0 (by decide), report 0 (by decide), report 1 (by decide), link 6 (by decide), link 7 (by decide)⟩
    · unfold statusClock
      rw [taken_clock]
      cases s.clock.pendingLoad <;> rfl
    · unfold statusIntervals
      rw [taken_interval]
      cases s.interval <;> exact byteOf_flag _
    · unfold statusIntervals
      rw [taken_interval]
      cases s.interval <;> rfl
    · unfold statusAlert
      rw [taken_alert]
      cases s.alert.pendingSetting <;> exact byteOf_flag _
  · exact exec_answer (rule := snapshotRule) (a := ⟨s.taken rest, .ok, liveReportBytes (s.taken rest).liveReport⟩) rfl
      begins rfl rfl
  · refine exec_answer (rule := readSettingsRule) (a := .refuse (s.taken rest) .badValue) rfl begins rfl ?_
    unfold readSettingsRule
    rw [show field8 [g] 0 = g.toNat from rfl, groupBytes_none high]
  · obtain ⟨staged, found, size⟩ := groupBytes_some low s.store.staged
    obtain ⟨active, found', size'⟩ := groupBytes_some low s.store.active
    refine ⟨staged, active, found, found', size, size'.trans size.symm, ?_⟩
    have bytes : [0, g, if s.store.commitPending then 1 else 0] ++ staged ++ active =
        0 :: (u8 g.toNat ++ flag s.store.commitPending ++ staged ++ active) := by
      rw [← byteOf_flag]
      simp [u8, flag, byteOf]
    rw [bytes, ← body_of_ok (s.taken rest)]
    refine exec_answer (rule := readSettingsRule)
      (a := ⟨s.taken rest, .ok, u8 g.toNat ++ flag s.store.commitPending ++ staged ++ active⟩) rfl begins rfl ?_
    unfold readSettingsRule
    rw [show field8 [g] 0 = g.toNat from rfl, taken_store, found, found']
  · have bytes : ∀ l, [0, BitVec.ofNat 8 s.capture.lend.code, if s.capture.protect then 1 else 0] ++
        u16 s.capture.preLength ++ u16 s.capture.tailLength ++ Chan.all.flatMap s.capture.ringBytes ++
        [BitVec.ofNat 8 s.capture.held.length] ++ l =
        0 :: (u8 s.capture.lend.code ++ flag s.capture.protect ++ u16 s.capture.preLength ++ u16 s.capture.tailLength ++
          Chan.all.flatMap s.capture.ringBytes ++ u8 s.capture.held.length ++ l) := by
      intro l
      rw [← byteOf_flag]
      rfl
    rw [bytes, ← body_of_ok (s.taken rest)]
    exact exec_answer (rule := listCapturesRule) rfl begins rfl rfl

end Sys2Proof.Machine
end

section
/-! PROOFS. The commands that set alert, capture and reporting (R122, R140, R170). -/

namespace Sys2Proof.Machine

theorem alertModeOf_eq_none {n : Nat} (h : 2 < n) : alertModeOf n = none := by
  unfold alertModeOf
  split <;> first | rfl | omega

/-- A clamp from 0 on is a cap. -/
theorem clamp_zero (hi n : Nat) : clamp 0 hi n = min hi n := Nat.zero_max _

/-! ### Item lists -/

theorem liveItemOf_eq_some {n : Nat} {i : LiveItem} (h : liveItemOf n = some i) : n = i.code := by
  unfold liveItemOf at h
  split at h
  all_goals cases h
  all_goals rfl

theorem code_range (i : LiveItem) : 1 ≤ i.code ∧ i.code ≤ 8 := by cases i <;> decide

theorem byteOf_code (i : LiveItem) : (byteOf i.code).toNat = i.code := by cases i <;> decide

theorem code_injective {i j : LiveItem} (h : byteOf i.code = byteOf j.code) : i = j := by
  have := congrArg liveItemOf ((byteOf_code i).symm.trans ((congrArg BitVec.toNat h).trans (byteOf_code j)))
  simpa using this

/-- Item codes are read back to the items, and only codes of items are read at all (R170). -/
theorem liveItemsOf_iff {codes : List Byte} {items : List LiveItem} :
    liveItemsOf codes = some items ↔ codes = items.map fun i => byteOf i.code := by
  induction codes generalizing items with
  | nil => cases items <;> simp [liveItemsOf]
  | cons c rest ih =>
    change (match liveItemOf c.toNat, liveItemsOf rest with
      | some i, some is => some (i :: is)
      | _, _ => none) = some items ↔ _
    constructor
    · intro h
      split at h
      next i is first others =>
        cases h
        rw [List.map_cons, ← ih.1 others, ← liveItemOf_eq_some first]
        simp [byteOf]
      next => cases h
    · intro h
      cases items with
      | nil => cases h
      | cons i is =>
        obtain ⟨rfl, others⟩ := List.cons.inj h
        rw [ih.2 others, byteOf_code, liveItemOf_code]

/-! ### SET_REPORTING (R170) -/

/-- The fields of an accepted SET_REPORTING. -/
theorem setReportingOf_fields {b : List Byte} {r : Reporting} (h : setReportingOf b = some r) :
    field8 b 0 < 8 ∧ field16 b 1 < 32768 ∧ field8 b 3 < 16 ∧ 1 ≤ field8 b 6 ∧ field8 b 6 ≤ 8 ∧ r.items.Nodup ∧
      (b.drop 7).take (field8 b 6) = r.items.map fun i => byteOf i.code := by
  unfold setReportingOf at h
  split at h
  next items found =>
    obtain ⟨legal, rfl⟩ := accept_eq_some h
    simp only [Bool.and_eq_true, decide_eq_true_eq, distinctItems_iff] at legal
    obtain ⟨⟨⟨⟨⟨enables, kinds⟩, chans⟩, some_⟩, few⟩, distinct⟩ := legal
    exact ⟨enables, kinds, chans, some_, few, distinct, liveItemsOf_iff.1 found⟩
  next => cases h

/-- The body of a SET_REPORTING reads back to its settings, with the live period clamped. -/
theorem setReportingOf_body {r : Reporting} {period : Nat} {fill : List Byte} (some_ : r.items ≠ []) (distinct : r.items.Nodup)
    (size : r.items.length + fill.length = 8) (short : period < 65536) :
    setReportingOf (setReportingBody r period fill) = some { r with livePeriod := clamp 100 10000 period } := by
  have pos : 1 ≤ r.items.length := List.length_pos_iff.2 some_
  have event := r.eventOn.toNat_lt
  have record := r.recordOn.toNat_lt
  have live := r.liveOn.toNat_lt
  have kindMask := r.kindMask.isLt
  have chanMask := r.chanMask.isLt
  have enables : field8 (setReportingBody r period fill) 0 =
      r.eventOn.toNat + 2 * r.recordOn.toNat + 4 * r.liveOn.toNat := field8_of rfl (by omega)
  have kinds : field16 (setReportingBody r period fill) 1 = r.kindMask.toNat := field16_of rfl rfl (by omega)
  have chans : field8 (setReportingBody r period fill) 3 = r.chanMask.toNat := field8_of rfl (by omega)
  have time : field16 (setReportingBody r period fill) 4 = period := field16_of rfl rfl short
  have count : field8 (setReportingBody r period fill) 6 = r.items.length := field8_of rfl (by omega)
  have codes : ((setReportingBody r period fill).drop 7).take r.items.length = r.items.map fun i => byteOf i.code := by
    change ((r.items.flatMap fun i => [byteOf i.code]) ++ fill).take r.items.length = _
    rw [← List.map_eq_flatMap, List.take_left' (List.length_map _)]
  unfold setReportingOf
  rw [count, codes, liveItemsOf_iff.2 rfl]
  dsimp only
  rw [enables, kinds, chans, time, accept_true]
  · have bits : ∀ e r l : Bool, (e.toNat + 2 * r.toNat + 4 * l.toNat).testBit 0 = e ∧
        (e.toNat + 2 * r.toNat + 4 * l.toNat).testBit 1 = r ∧ (e.toNat + 2 * r.toNat + 4 * l.toNat).testBit 2 = l := by
      decide
    obtain ⟨event, record, live⟩ := bits r.eventOn r.recordOn r.liveOn
    rw [event, record, live, BitVec.ofNat_toNat, BitVec.ofNat_toNat, BitVec.setWidth_eq, BitVec.setWidth_eq]
  · simp only [Bool.and_eq_true, decide_eq_true_eq, distinctItems_iff]
    exact ⟨⟨⟨⟨⟨by omega, by omega⟩, by omega⟩, pos⟩, by omega⟩, distinct⟩

/-- The rule as the command's own reply finds it: the settings are replaced, and an idle transmitter whose enables change
chooses (R169, R170). -/
theorem setReporting_chosen {s u : State} {r : Reporting}
    (h : u = if s.report.enablesDiffer r then State.transmit { s with report := s.report.configure r }
      else { s with report := s.report.configure r }) :
    u = { s with report := u.report, fifo := u.fifo } ∧
      u.report = { s.report.configure r with
        replies := u.report.replies, events := u.report.events, lostSinceSent := u.report.lostSinceSent
        liveSlot := u.report.liveSlot, sending := u.report.sending } ∧
      (r.liveOn = false → u.report.liveSlot = none) ∧
      (s.report.sending.isSome = true → u = { s with report := s.report.configure r }) ∧
      (s.report.sending = none → s.report.replies = [] → r.eventOn = true → s.report.eventOn = false → ∀ n ns,
        s.report.events = n :: ns →
          u.report.sending = some ⟨0x70, 0, noticeBytes n s.report.lostSinceSent⟩ ∧ u.report.events = ns) := by
  split at h
  next =>
    subst h
    refine ⟨?_, transmit_settings _, fun off => ?_, fun busy => ?_, fun idle empty on _ n ns found => ?_⟩
    · rw [transmit_frame]
    · have empty : (s.report.configure r).liveSlot = none := by simp [ReportQueue.configure, off]
      obtain same | none := transmit_liveSlot { s with report := s.report.configure r }
      · rw [same, empty]
      · exact none
    · obtain ⟨m, sending⟩ := Option.isSome_iff_exists.1 busy
      exact transmit_sending _ m sending
    · have chooses := ((selected_transmit { s with report := s.report.configure r }).2 idle).2 empty
      rw [chooses.1 ⟨on, by rw [show (s.report.configure r).events = n :: ns from found]; exact List.cons_ne_nil _ _⟩ n ns found]
      exact ⟨rfl, rfl⟩
  next same =>
    subst h
    refine ⟨rfl, rfl, fun off => ?_, fun _ => rfl, fun _ _ on was => ?_⟩
    · simp [ReportQueue.configure, off]
    · simp [ReportQueue.enablesDiffer, on, was] at same

/-- A reply stands behind every message that was there. -/
theorem repliedLast_of_answered {q q' : ReportQueue} {m : Message} (h : Answered q q' m) : RepliedLast q' m := by
  rw [RepliedLast, h.2.2]
  simp

/-- A formed reply leaves alone all but the replies and the message in transmission; a message in transmission stays. -/
theorem answered_sending {q q' : ReportQueue} {m n : Message} (h : Answered q q' n) (sending : q.sending = some m) :
    q'.sending = some m := by
  obtain ⟨-, busy, order⟩ := h
  obtain ⟨m', busy⟩ := Option.isSome_iff_exists.1 busy
  rw [busy, sending] at order
  rw [busy]
  exact congrArg some (List.cons.inj order).1

/-- Settles O55: each setter's body read back, and the transmit selection of SET_REPORTING. -/
theorem settersClampAndAnswer : Obligations.SettersClampAndAnswer := by
  intro s tag rest
  refine ⟨fun m h short begins => ?_, fun m a b bad begins => ?_, fun p pre tail short short' begins => ?_,
    fun p a b c d bad begins => ?_, fun r period fill some_ distinct size short begins => ?_, fun body length bad begins => ?_⟩
  · refine exec_answer (i := .setAlert tag (u8 m.code ++ u16 h)) (rule := setAlertRule)
      (a := ⟨{ s.taken rest with alert := { s.alert with pendingSetting := some (m, clamp 50 2000 h) } }, .ok,
        u16 (clamp 50 2000 h)⟩) rfl begins rfl ?_
    unfold setAlertRule setAlertOf
    rw [field8_of (n := m.code) rfl (by cases m <;> decide), alertModeOf_code, field16_of (n := h) rfl rfl short]
    rfl
  · refine exec_answer (i := .setAlert tag [m, a, b]) (rule := setAlertRule) (a := .refuse (s.taken rest) .badValue) rfl begins
      rfl ?_
    unfold setAlertRule setAlertOf
    rw [show field8 [m, a, b] 0 = m.toNat from rfl, alertModeOf_eq_none bad]
    rfl
  · refine exec_answer (i := .setCapture tag (flag p ++ u16 pre ++ u16 tail)) (rule := setCaptureRule)
      (a := ⟨{ s.taken rest with
        capture := { s.capture with protect := p, preLength := min 2000 pre, tailLength := min 5000 tail } }, .ok,
        u16 (min 2000 pre) ++ u16 (min 5000 tail)⟩) rfl begins rfl ?_
    unfold setCaptureRule setCaptureOf
    rw [field8_of (n := p.toNat) rfl (by cases p <;> decide), flagOf_toNat, field16_of (n := pre) rfl rfl short,
      field16_of (n := tail) rfl rfl short', clamp_zero, clamp_zero]
    rfl
  · refine exec_answer (i := .setCapture tag [p, a, b, c, d]) (rule := setCaptureRule) (a := .refuse (s.taken rest) .badValue)
      rfl begins rfl ?_
    unfold setCaptureRule setCaptureOf
    rw [show field8 [p, a, b, c, d] 0 = p.toNat from rfl, flagOf_eq_none bad]
    rfl
  · have length : (setReportingBody r period fill).length = 15 := by
      simp [setReportingBody, List.length_flatMap]
      omega
    obtain ⟨u, rule, chosen⟩ : ∃ u, setReportingRule (setReportingBody r period fill) (s.taken rest) =
        ⟨u, .ok, u16 (clamp 100 10000 period)⟩ ∧
        u = if s.report.enablesDiffer { r with livePeriod := clamp 100 10000 period } then State.transmit
            { s.taken rest with report := s.report.configure { r with livePeriod := clamp 100 10000 period } }
          else { s.taken rest with report := s.report.configure { r with livePeriod := clamp 100 10000 period } } := by
      unfold setReportingRule
      rw [setReportingOf_body some_ distinct size short]
      exact ⟨_, rfl, rfl⟩
    obtain ⟨frame, settings, off, busy, chooses⟩ := setReporting_chosen (s := s.taken rest) chosen
    obtain ⟨q, answered, run⟩ := exec_answer (i := .setReporting tag (setReportingBody r period fill))
      (rule := setReportingRule) rfl begins (by rw [length]; rfl) rule
    have kept : q = { u.report with replies := q.replies, sending := q.sending } := answered.1
    refine ⟨_, run, ?_, repliedLast_of_answered answered, ?_⟩
    · dsimp only
      rw [frame]
    · dsimp only
      refine ⟨?_, ?_, ?_, ?_, ?_, ?_, ?_, ?_, fun dark => ?_, fun sending => ?_, fun idle empty on was n ns found => ?_⟩
      · rw [kept, settings]; rfl
      · rw [kept, settings]; rfl
      · rw [kept, settings]; rfl
      · rw [kept, settings]; rfl
      · rw [kept, settings]; rfl
      · rw [kept, settings]; rfl
      · rw [kept, settings]; rfl
      · rw [kept, settings]; rfl
      · rw [kept]
        exact off dark
      · obtain ⟨m, found⟩ := Option.isSome_iff_exists.1 sending
        have still := busy sending
        rw [still] at kept answered ⊢
        refine ⟨rfl, by rw [kept]; rfl, (answered_sending answered found).trans found.symm, fun on => ?_⟩
        rw [kept]
        exact if_pos on
      · obtain ⟨sent, left⟩ := chooses idle empty on was n ns found
        refine ⟨answered_sending answered sent, ?_⟩
        rw [kept]
        exact left
  · refine exec_answer (i := .setReporting tag body) (rule := setReportingRule) (a := .refuse (s.taken rest) .badValue) rfl
      begins (by rw [length]; rfl) ?_
    have unread : setReportingOf body = none := by
      refine Option.eq_none_iff_forall_ne_some.2 fun r h => ?_
      obtain ⟨enables, kinds, chans, some_, few, distinct, codes⟩ := setReportingOf_fields h
      have kinds : field8 body 1 + 256 * field8 body 2 < 32768 := kinds
      rw [show (body.getD 6 0).toNat = field8 body 6 from rfl, codes] at bad
      unfold field8 at enables kinds chans
      rcases bad with bad | bad | bad | bad | bad | ⟨b, member, bad⟩ | bad
      · omega
      · omega
      · omega
      · exact absurd (congrArg BitVec.toNat bad) (Nat.ne_of_gt some_)
      · omega
      · obtain ⟨i, -, rfl⟩ := List.mem_map.1 member
        have range := code_range i
        rw [byteOf_code] at bad
        rcases bad with bad | bad
        · have := congrArg BitVec.toNat bad
          rw [byteOf_code] at this
          simp at this
          omega
        · omega
      · exact bad (distinct.map fun _ _ => code_injective)
    unfold setReportingRule
    rw [unread]

end Sys2Proof.Machine
end

section
/-! PROOFS. Notices offered one after another; the end of a check and the application of a commit; COMMIT and DISCARD (R16, R29,
R79 to R81, R154, R157). -/

namespace Sys2Proof.Machine

/-! ### Notices offered one after another (R162, R163) -/

/-- From `s` to `t` exactly the notices `ns` were offered: a queue with room for them, behind a busy transmitter, has them as
its newest, and neither it nor the record FIFO changes otherwise. -/
def Offers (s t : State) (ns : List Notice) : Prop :=
  ∀ n, TakesEvents s.report (ns.length + n) →
    t.fifo = s.fifo ∧ t.report = { s.report with events := s.report.events ++ ns }

namespace Offers

variable {s t u : State} {ns ms : List Notice}

theorem none (report : t.report = s.report) (fifo : t.fifo = s.fifo) : Offers s t [] := fun _ _ =>
  ⟨fifo, by rw [report, List.append_nil]⟩

theorem one (s : State) (c : Option Chan) (stamp : Stamp) (body : EventBody) :
    Offers s (s.offer c stamp body) [⟨c, stamp, body⟩] := fun n takes => by
  rw [(offer_of_takes (n := n) (by rwa [Nat.add_comm] at takes) c stamp body).1]
  exact ⟨rfl, rfl⟩

theorem takes (h : Offers s t ns) {n : Nat} (room : TakesEvents s.report (ns.length + n)) : TakesEvents t.report n := by
  obtain ⟨-, report⟩ := h n room
  obtain ⟨busy, room, kinds, chans⟩ := room
  rw [report]
  refine ⟨busy, ?_, kinds, chans⟩
  dsimp only
  rw [List.length_append]
  omega

theorem trans (h : Offers s t ns) (h' : Offers t u ms) : Offers s u (ns ++ ms) := by
  intro n room
  rw [List.length_append, Nat.add_assoc] at room
  obtain ⟨fifo, report⟩ := h _ room
  obtain ⟨fifo', report'⟩ := h' _ (h.takes room)
  exact ⟨fifo'.trans fifo, by rw [report', report, List.append_assoc]⟩

/-- Steps that touch neither report queue nor record FIFO do not count. -/
theorem after (h : Offers s t ns) (report : u.report = t.report) (fifo : u.fifo = t.fifo) : Offers s u ns := fun n room => by
  rw [report, fifo]
  exact h n room

theorem before (h : Offers t u ns) (report : t.report = s.report) (fifo : t.fifo = s.fifo) : Offers s u ns := by
  have := (Offers.none report fifo).trans h
  rwa [List.nil_append] at this

theorem events (h : Offers s t ns) (room : TakesEvents s.report ns.length) :
    t.fifo = s.fifo ∧ t.report.events = s.report.events ++ ns := by
  obtain ⟨fifo, report⟩ := h 0 room
  rw [report]
  exact ⟨fifo, rfl⟩

end Offers

/-! ### The end of a check (R154) -/

theorem endCheck_idle {s : State} (h : ∀ p, ¬Running s p) (e : Ending) (counted : Nat) (stamp : Stamp) :
    s.endCheck e counted stamp = s := by
  unfold State.endCheck
  split
  · rfl
  · rfl
  next p params busy => exact absurd ⟨busy, params⟩ (h p)

theorem cutCheck_idle {s : State} (h : ∀ p, ¬Running s p) (result : CheckEnd) (stamp : Stamp) :
    s.cutCheck result stamp = s := endCheck_idle h ..

/-- What the end of a running check leaves: the freeze lifted, the unit cleared, the staged K of an adjustment made, the
record, and CHECK_DONE offered. -/
theorem endCheck_running {s : State} {p : CheckParams} (h : Running s p) (e : Ending) (counted : Nat) (stamp : Stamp)
    {outcome : Adjustment} (adjusts : e.adjustment p s.store.commitPending (s.k p.chan) = outcome) {r : CheckRecord}
    (record : ((s.releaseChannel p.chan).adjustK p.chan outcome e.deviation).checkRecord p e outcome counted = r) :
    s.endCheck e counted stamp =
      State.offer
        { (s.releaseChannel p.chan).adjustK p.chan outcome e.deviation with check := ⟨.idle, none, 0, 0, some r⟩ }
        (some p.chan) stamp (.checkDone r) := by
  obtain ⟨busy, params⟩ := h
  subst adjusts record
  unfold State.endCheck
  split
  next idle => exact absurd idle busy
  next none _ => cases params.symm.trans none
  next p' found _ =>
    cases params.symm.trans found
    rfl

/-- What cuts a running check short makes no adjustment (R153, R154). -/
theorem cutCheck_running {s : State} {p : CheckParams} (h : Running s p) {result : CheckEnd} (cut : result ≠ .pass)
    (cut' : result ≠ .fail) (stamp : Stamp) :
    s.cutCheck result stamp =
      State.offer
        { s.releaseChannel p.chan with
          check := ⟨.idle, none, 0, 0, some (cutRecord s p result (s.store.staged.chan.get p.chan).k)⟩ }
        (some p.chan) stamp (.checkDone (cutRecord s p result (s.store.staged.chan.get p.chan).k)) := by
  have counted : s.check.measuredBlocks = if s.check.phase = .collecting then s.check.counter else 0 := by
    unfold CheckEngine.measuredBlocks
    cases s.check.phase <;> rfl
  have outcome : (Ending.cut result).adjustment p s.store.commitPending (s.k p.chan) = .notCompleted := by
    unfold Ending.adjustment Ending.cut
    cases result <;> first | rfl | exact absurd rfl cut | exact absurd rfl cut'
  refine endCheck_running h (.cut result) _ stamp outcome ?_
  rw [counted]
  rfl

theorem cutCheck_offers {s : State} {p : CheckParams} (h : Running s p) {result : CheckEnd} (cut : result ≠ .pass)
    (cut' : result ≠ .fail) (stamp : Stamp) :
    Offers s (s.cutCheck result stamp)
      [⟨some p.chan, stamp, .checkDone (cutRecord s p result (s.store.staged.chan.get p.chan).k)⟩] := by
  rw [cutCheck_running h cut cut']
  exact (Offers.one _ _ _ _).before rfl rfl

theorem releaseChannel_range (s : State) (c d : Chan) :
    (s.releaseChannel c).range.get d =
      if d = c then { s.range.get c with frozen := false } else s.range.get d := Quad.get_set ..

theorem releaseChannel_unit (s : State) (c d : Chan) :
    (s.releaseChannel c).unit.get d =
      if d = c then { s.unit.get c with main := .rest, peak := .rest, yF := 0, yS := 0, fCount := 0, sCount := 0 }
      else s.unit.get d := Quad.get_set ..

/-! ### The application of a commit (R81) -/

theorem sameFilter_iff (old new : Settings) (c : Chan) (set : ChannelSettings → Nat) :
    SameFilter old new c set ↔ filterChanged old new (set (old.chan.get c)) (set (new.chan.get c)) = false := by
  unfold SameFilter filterChanged
  rw [Bool.or_eq_false_iff, decide_eq_false_iff_not, not_not, decide_eq_false_iff_not, not_not]

theorem undisturbed_iff (old new : Settings) (c : Chan) :
    Undisturbed old new c ↔ checkDisturbed old new c = false := by
  unfold Undisturbed checkDisturbed mainChanged peakChanged
  rw [sameFilter_iff, sameFilter_iff, Bool.or_eq_false_iff, Bool.or_eq_false_iff, decide_eq_false_iff_not, not_not,
    and_assoc]

/-- The unit's part of a commit (R29). -/
theorem unitCommitted (old new : Settings) (c : Chan) (u : WeightUnit) :
    UnitCommitted old new c u (u.commit (mainChanged old new c) (peakChanged old new c)) := by
  unfold UnitCommitted
  rw [sameFilter_iff, sameFilter_iff]
  change _ ∧ (mainChanged old new c = false → _) ∧ (¬mainChanged old new c = false → _) ∧
    (peakChanged old new c = false → _) ∧ (¬peakChanged old new c = false → _)
  cases mainChanged old new c <;> cases peakChanged old new c <;>
    simp [WeightUnit.commit, WeightUnit.clearDetectors]

/-- The state of an applied commit before the check engine takes it (R81). -/
def State.committed (s : State) (atBoundary : Bool) (stamp : Stamp) : State :=
  (((State.offer { s with store := s.store.applied } none stamp (.configApplied atBoundary)).commitRanges s.store.active
    s.store.staged).commitUnits s.store.active s.store.staged).commitGuard s.store.active s.store.staged

section Committed
variable (s : State) (atBoundary : Bool) (stamp : Stamp)

theorem applyCommit_eq :
    s.applyCommit atBoundary stamp = (s.committed atBoundary stamp).commitCheck s.store.active s.store.staged stamp := rfl

@[simp] theorem committed_check : (s.committed atBoundary stamp).check = s.check := by
  rw [State.committed, commitGuard_check]
  exact offer_check ..

@[simp] theorem committed_store : (s.committed atBoundary stamp).store = s.store.applied := by
  rw [State.committed, commitGuard_store]
  exact offer_store ..

theorem committed_range (c : Chan) :
    (s.committed atBoundary stamp).range.get c =
      (s.range.get c).commit (s.store.active.range.get c) (s.store.staged.range.get c) (s.store.staged.codes.get c) := by
  rw [State.committed, commitGuard_range, State.commitUnits, State.commitRanges, Quad.get_mapWith, offer_range]

theorem committed_unit (c : Chan) :
    UnitCommitted s.store.active s.store.staged c (s.unit.get c) ((s.committed atBoundary stamp).unit.get c) := by
  rw [State.committed, commitGuard_unit, State.commitUnits, Quad.get_mapWith]
  change UnitCommitted _ _ _ _ (WeightUnit.commit _ _
    ((State.offer { s with store := s.store.applied } none stamp (.configApplied atBoundary)).unit.get c))
  rw [offer_unit]
  exact unitCommitted ..

theorem committed_acc :
    (s.committed atBoundary stamp).acc =
      { s.acc with
        guardRemaining :=
          if s.store.active.mode = s.store.staged.mode ∧ s.store.active.polarityHigh = s.store.staged.polarityHigh ∧
              s.store.active.guardLength = s.store.staged.guardLength then s.acc.guardRemaining
          else s.store.staged.guardLength } := by
  have acc := offer_acc { s with store := s.store.applied } none stamp (.configApplied atBoundary)
  have changed : activityChanged s.store.active s.store.staged = true ↔ ¬(s.store.active.mode = s.store.staged.mode ∧
      s.store.active.polarityHigh = s.store.staged.polarityHigh ∧
      s.store.active.guardLength = s.store.staged.guardLength) := by
    simp only [activityChanged, Bool.or_eq_true, decide_eq_true_eq]
    tauto
  rw [State.committed, State.commitGuard]
  split
  next h =>
    rw [if_neg (changed.1 h)]
    exact congrArg (fun a : Accumulator => { a with guardRemaining := s.store.staged.guardLength }) acc
  next h =>
    rw [if_pos (not_not.1 (mt changed.2 h))]
    exact acc

theorem committed_offers :
    Offers s (s.committed atBoundary stamp) [⟨none, stamp, .configApplied atBoundary⟩] :=
  ((Offers.one { s with store := s.store.applied } none stamp (.configApplied atBoundary)).before rfl rfl).after
    (commitGuard_report ..) (commitGuard_fifo ..)

theorem committed_running (p : CheckParams) : Running (s.committed atBoundary stamp) p ↔ Running s p := by
  unfold Running
  rw [committed_check]

end Committed

theorem commitCheck_cases (u : State) (old new : Settings) (stamp : Stamp) :
    ((∀ p, Running u p → Undisturbed old new p.chan) ∧ u.commitCheck old new stamp = u) ∨
      ∃ p, Running u p ∧ ¬Undisturbed old new p.chan ∧
        u.commitCheck old new stamp = u.cutCheck .configChanged stamp := by
  unfold State.commitCheck
  cases params : u.check.params with
  | none => exact .inl ⟨fun p running => (nomatch params.symm.trans running.2), rfl⟩
  | some p =>
    by_cases disturbed : checkDisturbed old new p.chan = true
    · by_cases running : Running u p
      · exact .inr ⟨p, running, by rw [undisturbed_iff, disturbed]; exact Bool.noConfusion, if_pos disturbed⟩
      · have idle : ∀ q, ¬Running u q := fun q h => by
          cases params.symm.trans h.2
          exact running h
        exact .inl ⟨fun q h => absurd h (idle q), (if_pos disturbed).trans (cutCheck_idle idle ..)⟩
    · refine .inl ⟨fun q h => ?_, if_neg disturbed⟩
      cases params.symm.trans h.2
      exact (undisturbed_iff ..).2 (Bool.eq_false_iff.2 disturbed)

/-- What the application of a commit does (R81). -/
theorem applyCommit_taken (s : State) (atBoundary : Bool) (stamp : Stamp) :
    ∃ ns, CommitTaken s (s.applyCommit atBoundary stamp) stamp atBoundary ns ∧
      Offers s (s.applyCommit atBoundary stamp) ns := by
  have running := committed_running s atBoundary stamp
  have guard := congrArg Accumulator.guardRemaining (committed_acc s atBoundary stamp)
  rw [applyCommit_eq]
  obtain ⟨calm, same⟩ | ⟨p, runs, disturbed, cut⟩ :=
    commitCheck_cases (s.committed atBoundary stamp) s.store.active s.store.staged stamp
  · rw [same]
    refine ⟨_, ⟨guard, fun _ => ⟨committed_check .., rfl, fun c => ⟨committed_range .., committed_unit ..⟩⟩,
      fun p runs disturbed => absurd (calm p ((running p).2 runs)) disturbed⟩, committed_offers _ _ _⟩
  · have runs' := (running p).1 runs
    have record : cutRecord (s.committed atBoundary stamp) p .configChanged
        ((s.committed atBoundary stamp).store.staged.chan.get p.chan).k =
        cutRecord s p .configChanged (s.store.staged.chan.get p.chan).k := by
      unfold cutRecord
      rw [committed_check, committed_store]
      rfl
    have offers := cutCheck_offers runs (result := .configChanged) (fun h => nomatch h) (fun h => nomatch h) stamp
    have ends := cutCheck_running runs (result := .configChanged) (fun h => nomatch h) (fun h => nomatch h) stamp
    rw [record] at offers ends
    rw [cut]
    refine ⟨_, ⟨?_, fun calm => absurd (calm p runs') disturbed, fun q runs'' _ => ?_⟩,
      (committed_offers s atBoundary stamp).trans offers⟩
    · rw [cutCheck_acc]
      exact guard
    · cases runs'.2.symm.trans runs''.2
      rw [ends, offer_check, offer_range, offer_unit]
      refine ⟨rfl, rfl, ?_, ?_, fun c other => ⟨?_, ?_⟩⟩
      · refine (releaseChannel_range (s.committed atBoundary stamp) p.chan p.chan).trans ?_
        rw [if_pos rfl, committed_range]
      · refine (releaseChannel_unit (s.committed atBoundary stamp) p.chan p.chan).trans ?_
        rw [if_pos rfl, (committed_unit s atBoundary stamp p.chan).1]
      · refine (releaseChannel_range (s.committed atBoundary stamp) p.chan c).trans ?_
        rw [if_neg other, committed_range]
      · have unit := releaseChannel_unit (s.committed atBoundary stamp) p.chan c
        rw [if_neg other] at unit
        exact unit ▸ committed_unit ..

theorem applyCommit_acc (s : State) (atBoundary : Bool) (stamp : Stamp) :
    (s.applyCommit atBoundary stamp).acc =
      { s.acc with guardRemaining := (s.applyCommit atBoundary stamp).acc.guardRemaining } := by
  have acc := commitCheck_acc (s.committed atBoundary stamp) s.store.active s.store.staged stamp
  rw [← applyCommit_eq, committed_acc] at acc
  rw [acc]

/-- A commit at once carries its mark and its gain changes, and may restart the guard (R81, R91). -/
theorem commitAtOnce_acc (s : State) (stamp : Stamp) :
    (s.commitAtOnce stamp).acc =
      { s.acc with
        carriedConfig := true, carriedGain := (s.commitAtOnce stamp).acc.carriedGain
        guardRemaining := (s.commitAtOnce stamp).acc.guardRemaining } := by
  unfold State.commitAtOnce State.carryCommit
  dsimp only
  rw [applyCommit_acc]

theorem commitAtOnce_carriedGain (s : State) (stamp : Stamp) :
    (s.commitAtOnce stamp).acc.carriedGain =
      s.acc.carriedGain.mapWith fun c n => addUpTo max32 n ((s.clampCounts s.store.staged).get c) := by
  unfold State.commitAtOnce State.carryCommit
  dsimp only
  rw [applyCommit_acc]

/-- A reply leaves the notices that are queued (R161). -/
theorem answered_events {q q' : ReportQueue} {m : Message} (h : Answered q q' m) : q'.events = q.events := by
  rw [h.1]

theorem commitTaken_congr {s s' t t' : State} {stamp : Stamp} {atBoundary : Bool} {ns : List Notice}
    (h : CommitTaken s t stamp atBoundary ns) (store : s'.store = s.store) (check : s'.check = s.check)
    (range : s'.range = s.range) (unit : s'.unit = s.unit) (guard : s'.acc.guardRemaining = s.acc.guardRemaining)
    (check' : t'.check = t.check) (range' : t'.range = t.range) (unit' : t'.unit = t.unit)
    (guard' : t'.acc.guardRemaining = t.acc.guardRemaining) : CommitTaken s' t' stamp atBoundary ns := by
  unfold CommitTaken Running cutRecord at *
  rw [store, check, range, unit, guard, check', range', unit', guard']
  exact h

/-- Settles O53: the commit at once is the application of the commit with the mark and the counts carried. -/
theorem commitAndDiscard : Obligations.CommitAndDiscard := by
  intro s tag rest
  refine ⟨fun begins => ?_, fun begins => ⟨fun phase => ?_, fun phase => ?_⟩⟩
  · exact exec_answer (rule := discardRule) (a := .done { s.taken rest with store := s.store.revert }) rfl begins rfl rfl
  · refine exec_answer (rule := commitRule)
      (a := .done { s.taken rest with store := { s.store with commitPending := true } }) rfl begins rfl ?_
    simp only [commitRule, taken_acc, phase, taken_store]
  · have rule : commitRule [] (s.taken rest) = .done ((s.taken rest).commitAtOnce s.clock.now) := by
      unfold commitRule
      rw [taken_acc]
      cases found : s.acc.phase
      · rfl
      · exact absurd found phase
      · rfl
    obtain ⟨q, answered, run⟩ := exec_answer (i := .commit tag []) (rule := commitRule) rfl begins rfl rule
    obtain ⟨ns, taken, offers⟩ := applyCommit_taken (s.taken rest) false s.clock.now
    refine ⟨_, ns, run, ?_, ?_, commitTaken_congr taken rfl rfl rfl rfl rfl rfl rfl rfl rfl,
      repliedLast_of_answered answered, fun room => ?_, ?_, fun c => ?_⟩
    · have frame := commitAtOnce_frame (s.taken rest) s.clock.now
      exact congrArg (fun u : State => { u with report := q }) frame
    · exact commitAtOnce_store (s.taken rest) s.clock.now
    · obtain ⟨fifo, events⟩ := offers.events room
      exact ⟨fifo, (answered_events answered).trans events⟩
    · exact commitAtOnce_acc (s.taken rest) s.clock.now
    · have carried := commitAtOnce_carriedGain (s.taken rest) s.clock.now
      refine (congrArg (Quad.get · c) carried).trans ?_
      rw [Quad.get_mapWith, State.clampCounts, Quad.get_mapWith]
      rfl

end Sys2Proof.Machine
end

section
/-! PROOFS. The capture step of a block end (R125, R128, R129, R135, R137, R145). -/

namespace Sys2Proof.Machine

/-! ### A block that is offered (R128, R137) -/

theorem accepts_iff (k : Capture) : k.accepts = true ↔ Accepts k := by
  unfold Capture.accepts Accepts
  rw [Bool.and_eq_true, decide_eq_true_eq, decide_eq_true_eq]
  rfl

theorem recorded_eq (k : Capture) (d : Descriptor) : k.recorded d = blockRecorded k d := by
  unfold Capture.recorded blockRecorded
  by_cases owned : k.lend = .owned
  · rw [if_pos owned, if_pos owned]
    by_cases room : k.buffer.length < 4
    · rw [if_pos room, if_pos ((accepts_iff k).2 ⟨owned, room⟩)]
    · rw [if_neg room, if_neg fun h => room ((accepts_iff k).1 h).2]
  · rw [if_neg owned, if_neg owned, if_neg fun h => owned ((accepts_iff k).1 h).1]

theorem tailAfter_eq (k : Capture) (c : Chan) (tail : Option Nat) :
    k.tailAfter c tail = if k.closeBlock.get c = true then tail else tail.map (· - 1) := rfl

/-- The two bytes of a sample in a capture block (R125). -/
theorem i16_sample (v : Int) : i16 (v / 256) = [BitVec.ofInt 8 (v / 256), BitVec.ofInt 8 (v / 65536)] := by
  have low : byteOf (v / 256 % 65536).toNat = BitVec.ofInt 8 (v / 256) := by
    apply BitVec.eq_of_toNat_eq
    rw [byteOf_toNat, BitVec.toNat_ofInt]
    omega
  have high : byteOf ((v / 256 % 65536).toNat / 256) = BitVec.ofInt 8 (v / 65536) := by
    apply BitVec.eq_of_toNat_eq
    rw [byteOf_toNat, BitVec.toNat_ofInt]
    omega
  rw [i16, u16, low, high]

/-- The 100 bytes of a capture block, each said outright (R125, R187). -/
theorem captureBlock_eq (s : State) (c : Chan) :
    s.captureBlock c =
      [BitVec.ofNat 8 (s.handed.results.get c).gain,
        BitVec.ofNat 8 ((if (s.handed.results.get c).overload then 1 else 0)
          + (if 0 < (s.handed.results.get c).settlingSamples then 2 else 0)
          + (if s.handed.classes.get c = .excluded then 4 else 0)),
        BitVec.ofNat 8 s.handed.report.named, BitVec.ofNat 8 (s.handed.report.named / 256)] ++
        (s.handed.results.get c).raw.flatMap fun v => [BitVec.ofInt 8 (v / 256), BitVec.ofInt 8 (v / 65536)] := by
  have once (b : Bool) : b.toNat = if b then 1 else 0 := by cases b <;> rfl
  have marked (p : Prop) [Decidable p] (n : Nat) : n * (decide p).toNat = if p then n else 0 := by
    split <;> simp [*]
  unfold State.captureBlock captureBlockBytes State.results
  dsimp only
  rw [marked, marked, once]
  simp only [i16_sample]
  rfl

/-- The capture controller once a block addressed to position `p` of region `i` for channel `c` was offered. -/
def Capture.offered (k : Capture) (c : Chan) (e : BufferEntry) : Capture :=
  { (if k.accepts then k.push e else k) with closeBlock := k.closeBlock.set c false }

section Offered
variable (k : Capture) (c : Chan) (e : BufferEntry)

@[simp] theorem offered_regions : (k.offered c e).regions = k.regions := by
  unfold Capture.offered
  split
  · exact Capture.push_regions k e
  · rfl

@[simp] theorem offered_rings : (k.offered c e).rings = k.rings := by
  unfold Capture.offered
  split
  · exact Capture.push_rings k e
  · rfl

@[simp] theorem offered_closeBlock : (k.offered c e).closeBlock = k.closeBlock.set c false := rfl

variable {k}

theorem push_busy (busy : k.inFlight.isSome = true) : k.push e = { k with buffer := k.buffer ++ [e] } := by
  obtain ⟨op, flying⟩ := Option.isSome_iff_exists.1 busy
  unfold Capture.push Capture.arbitrate
  rw [flying]

theorem push_idle (owned : k.lend = .owned) (idle : k.inFlight = none) (job : k.job = none) (empty : k.buffer = []) :
    k.push e = { k with inFlight := some (.write e), buffer := [] } := by
  unfold Capture.push Capture.arbitrate Capture.choose Capture.waitingRead
  rw [idle, owned, job, empty]
  rfl

theorem offered_accepted (accepts : Accepts k) :
    (k.inFlight.isSome = true → (k.offered c e).buffer = k.buffer ++ [e]) ∧
      (k.inFlight = none → k.job = none → k.buffer = [] →
        (k.offered c e).inFlight = some (.write e) ∧ (k.offered c e).buffer = []) := by
  unfold Capture.offered
  rw [if_pos ((accepts_iff k).2 accepts)]
  refine ⟨fun busy => ?_, fun idle job empty => ?_⟩
  · rw [push_busy e busy]
  · rw [push_idle e accepts.1 idle job empty]
    exact ⟨rfl, rfl⟩

theorem offered_refused (refuses : ¬Accepts k) : k.offered c e = { k with closeBlock := k.closeBlock.set c false } := by
  unfold Capture.offered
  rw [if_neg fun h => refuses ((accepts_iff k).1 h)]

end Offered

/-! ### A recording's step (R135) -/

/-- The entry of the block that has ended, addressed to a recording (R128). -/
def State.recordingEntry (s : State) (c : Chan) (i : Fin 16) (d : Descriptor) : BufferEntry :=
  ⟨i, (d.start + d.length) % 10000, s.captureBlock c⟩

/-- The state in which the block that has ended was offered for a recording. -/
def State.blockOffered (s : State) (c : Chan) (i : Fin 16) (d : Descriptor) : State :=
  { s with capture := s.capture.offered c (s.recordingEntry c i d) }

section Recording
variable {s : State} {c : Chan} {i : Fin 16} {d : Descriptor} {tail : Option Nat}

theorem captureStep_of_recording (h : s.capture.recording c = some (i, d, tail)) :
    s.captureStep c = match s.capture.recordingEnd c d tail with
      | .full => (s.blockOffered c i d).storeCapture i
          { blockRecorded s.capture d with truncated := d.truncated || s.capture.truncatedAtFull c tail }
          s.handed.report.ended
      | .tailEnds => (s.blockOffered c i d).storeCapture i (blockRecorded s.capture d) s.handed.report.ended
      | .goesOn => (s.blockOffered c i d).setRole i (.recording (blockRecorded s.capture d) (s.capture.tailAfter c tail)) := by
  unfold State.captureStep
  rw [h]
  dsimp only
  unfold State.recordBlock
  dsimp only
  rw [recorded_eq]
  cases s.capture.recordingEnd c d tail <;> rfl

theorem recordingEnds_eq (h : s.capture.recording c = some (i, d, tail)) :
    s.recordingEnds c = s.capture.recordingEnd c d tail := by
  unfold State.recordingEnds
  rw [h]

theorem recordingEnd_full (accepts : Accepts s.capture) (length : 10000 ≤ d.length + 1) :
    s.capture.recordingEnd c d tail = .full := if_pos ⟨(accepts_iff _).2 accepts, length⟩

theorem recordingEnd_short (short : ¬Accepts s.capture ∨ d.length + 1 < 10000) :
    s.capture.recordingEnd c d tail = if s.capture.tailAfter c tail = some 0 then .tailEnds else .goesOn := by
  refine if_neg fun h => ?_
  obtain refuses | length := short
  · exact refuses ((accepts_iff _).1 h.1)
  · exact absurd h.2 (by simp only [Config.regionPositions]; omega)

end Recording

/-- The capture that becomes STORED: its region's role, and the notice (R135). -/
theorem storeCapture_ends (s : State) (i : Fin 16) (d : Descriptor) (stamp : Stamp) :
    (s.storeCapture i d stamp).capture = { s.capture with regions := s.capture.regions.set i (.stored d) } ∧
      (s.storeCapture i d stamp).blockWork = s.blockWork ∧
      Offers s (s.storeCapture i d stamp) [⟨some d.chan, stamp, .captureStored i d⟩] := by
  unfold State.storeCapture
  refine ⟨?_, ?_, (Offers.one _ _ _ _).before rfl rfl⟩
  · rw [offer_capture]; rfl
  · rw [offer_blockWork]; rfl

/-- A recording that ends with the block that has ended, all that it changes (R135). -/
theorem recording_stored (s : State) {c : Chan} (i : Fin 16) (d : Descriptor) {d' : Descriptor} (same : d'.chan = c)
    (stamp : Stamp) {u : State} (stored : u = (s.blockOffered c i d).storeCapture i d' stamp) :
    u.blockWork = s.blockWork ∧ u.capture.regions = s.capture.regions.set i (.stored d') ∧
      u.capture.rings = s.capture.rings ∧ u.capture.closeBlock.get c = false ∧
      (Accepts s.capture →
        (s.capture.inFlight.isSome = true → u.capture.buffer = s.capture.buffer ++ [s.recordingEntry c i d]) ∧
        (s.capture.inFlight = none → s.capture.job = none → s.capture.buffer = [] →
          u.capture.inFlight = some (.write (s.recordingEntry c i d)) ∧ u.capture.buffer = [])) ∧
      (¬Accepts s.capture → u.capture.buffer = s.capture.buffer ∧ u.capture.inFlight = s.capture.inFlight) ∧
      (TakesEvents s.report 1 → u.report.events = s.report.events ++ [⟨some c, stamp, .captureStored i d'⟩]) := by
  obtain ⟨capture, work, offers⟩ := storeCapture_ends (s.blockOffered c i d) i d' stamp
  have offered : (s.blockOffered c i d).capture = s.capture.offered c (s.recordingEntry c i d) := rfl
  rw [← stored] at capture work offers
  rw [same] at offers
  rw [capture, offered]
  dsimp only
  rw [offered_regions, offered_rings, offered_closeBlock]
  refine ⟨work, rfl, rfl, Quad.get_set_same .., offered_accepted c _, fun refuses => ?_,
    fun room => (offers.events room).2⟩
  rw [offered_refused c _ refuses]
  exact ⟨rfl, rfl⟩

/-- Settles O41: by how the recording ends with the block. -/
theorem captureStepEndsRecording : Obligations.CaptureStepEndsRecording := by
  intro s c l i d tail
  dsimp only
  intro ready found
  rw [← tailAfter_eq, ← captureBlock_eq]
  have chan : (blockRecorded s.capture d).chan = c := by
    rw [← recorded_eq, Capture.recorded_chan]
    exact (Capture.recording_some found).2
  have step := captureStep_of_recording (s := s.withDue (l.erase (.capture c))) found
  change _ = match s.capture.recordingEnd c d tail with | .full => _ | .tailEnds => _ | .goesOn => _ at step
  have row (x : RecordingEnd) :
      s.takeUpTo Config.pick (.capture c) (fun s => decide (s.recordingEnds c = x)) =
        if s.capture.recordingEnd c d tail = x then (s.withDue (l.erase (.capture c))).captureStep c else s := by
    rw [takeUpTo_of_ready ready, recordingEnds_eq found]
    simp only [decide_eq_true_eq]
    rfl
  have full : exec (.captureFull c) s = .next _ := congrArg Host.Outcome.next (row .full)
  have tailEnd : exec (.captureTailEnd c) s = .next _ := congrArg Host.Outcome.next (row .tailEnds)
  refine ⟨fun accepts length => ?_, fun short left => ?_, fun short left => ?_⟩
  · have ends := recordingEnd_full (c := c) (tail := tail) accepts length.ge
    rw [ends] at step full tailEnd
    refine ⟨⟨_, full, ?_⟩, tailEnd⟩
    rw [if_pos rfl]
    refine recording_stored (s.withDue (l.erase (.capture c))) i d ?_ _ (step.trans ?_)
    · exact (Capture.recording_some found).2
    · have longer : blockRecorded s.capture d = { d with length := 10000 } := by
        unfold blockRecorded
        rw [if_pos accepts.1, if_pos accepts.2, length]
      exact congrArg (fun d' : Descriptor => (State.blockOffered _ c i d).storeCapture i
        { d' with truncated := d.truncated || s.capture.truncatedAtFull c tail } s.handed.report.ended) longer
  · have ends := recordingEnd_short (c := c) (tail := tail) short
    rw [if_pos left] at ends
    rw [ends] at step full tailEnd
    refine ⟨⟨_, tailEnd, ?_⟩, full⟩
    rw [if_pos rfl]
    exact recording_stored (s.withDue (l.erase (.capture c))) i d chan _ step
  · have ends := recordingEnd_short (c := c) (tail := tail) short
    rw [if_neg left] at ends
    rw [ends] at full tailEnd
    exact ⟨tailEnd, full⟩

/-! ### A block end with the capture step alone (R128, R129, R145) -/

theorem isRingOf_iff (c : Chan) (r : Role) : Role.isRingOf c r = true ↔ r = .ring c := by
  unfold Role.isRingOf
  split
  · rw [decide_eq_true_eq, Role.ring.injEq]
  next other => simpa using fun h => other c h

/-- The one region with a property is found. -/
theorem find_unique {k : Capture} {p : Role → Bool} {i : Fin 16} (found : p k.regions[i] = true)
    (only : ∀ j : Fin 16, p k.regions[j] = true → j = i) : k.find p = some i := by
  cases look : k.find p with
  | none => rw [Capture.find_none look i] at found; cases found
  | some j => rw [only j (Capture.find_some look)]

/-- The part of a ring's step that moves the ring on (R129). -/
theorem accepted_eq (r : Ring) :
    r.accepted = ⟨(r.head + 1) % 10000, min 10000 (r.fill + 1),
      r.dropAge.bind fun a => if a + 1 < 10000 then some (a + 1) else none⟩ := by
  have aged : r.agedDrop = r.dropAge.bind fun a => if a + 1 < 10000 then some (a + 1) else none := by
    unfold Ring.agedDrop
    cases r.dropAge <;> rfl
  unfold Ring.accepted
  rw [aged]
  rfl

section Ring
variable {s : State} (c : Chan) (i : Fin 16) (bytes : List Byte)

theorem ringBlock_accepted (h : Accepts s.capture) :
    s.ringBlock c i bytes =
      { s with
        capture :=
          { s.capture.push ⟨i, (s.capture.rings.get c).head, bytes⟩ with
            rings := s.capture.rings.set c (s.capture.rings.get c).accepted } } := if_pos ((accepts_iff _).2 h)

theorem ringBlock_dropped (h : ¬Accepts s.capture) (owned : s.capture.lend = .owned) :
    s.ringBlock c i bytes = s.setRing c { s.capture.rings.get c with dropAge := some 0 } :=
  (if_neg fun a => h ((accepts_iff _).1 a)).trans (if_pos owned)

theorem ringBlock_lent (lent : s.capture.lend ≠ .owned) : s.ringBlock c i bytes = s :=
  (if_neg fun a => lent ((accepts_iff _).1 a).1).trans (if_neg lent)

end Ring

/-- Settles O42: by the region that records the channel or is its ring. -/
theorem captureStepKeepsBlocks : Obligations.CaptureStepKeepsBlocks := by
  intro s c due
  dsimp only
  have run : exec .blockEnd s = .next (s.alone.captureStep c).endOfBlock := exec_blockEnd (finishBlock_of_one due)
  refine ⟨fun i d tail found short => ?_, fun i none unique => ?_⟩
  · rw [← tailAfter_eq]
    have step := captureStep_of_recording (s := s.alone) found
    have ends := recordingEnd_short (c := c) (tail := tail) short
    have offered : (s.alone.blockOffered c i d).capture = s.capture.offered c (s.recordingEntry c i d) := rfl
    refine ⟨_, run, ?_⟩
    by_cases left : s.capture.tailAfter c tail = some 0
    · rw [if_pos left] at ends
      rw [show s.alone.capture.recordingEnd c d tail = .tailEnds from ends] at step
      obtain ⟨capture, -, -⟩ := storeCapture_ends (s.alone.blockOffered c i d) i (blockRecorded s.capture d)
        s.handed.report.ended
      have capture : (s.alone.captureStep c).capture = _ := (congrArg State.capture step).trans capture
      unfold State.endOfBlock
      dsimp only
      rw [capture, offered, offered_rings, offered_regions]
      refine ⟨rfl, rfl, fun goesOn => absurd left goesOn, fun _ => rfl, fun refuses => ?_⟩
      rw [offered_refused c _ refuses]
      exact ⟨rfl, rfl⟩
    · rw [if_neg left] at ends
      rw [show s.alone.capture.recordingEnd c d tail = .goesOn from ends] at step
      have capture : (s.alone.captureStep c).capture = { s.capture.offered c (s.recordingEntry c i d) with
          regions := (s.capture.offered c (s.recordingEntry c i d)).regions.set i
            (.recording (blockRecorded s.capture d) (s.capture.tailAfter c tail)) } := congrArg State.capture step
      have report : (s.alone.captureStep c).report = s.report := by rw [step]; rfl
      unfold State.endOfBlock
      dsimp only
      rw [capture, report, offered_rings, offered_regions]
      refine ⟨rfl, rfl, fun _ => ⟨rfl, rfl⟩, fun ended => absurd ended left, fun refuses => ?_⟩
      rw [offered_refused c _ refuses]
      exact ⟨rfl, rfl⟩
  · have ring : s.capture.ringRegion c = some i :=
      find_unique ((isRingOf_iff ..).2 ((unique i).2 rfl)) fun j h => (unique j).1 ((isRingOf_iff ..).1 h)
    have step : s.alone.captureStep c = s.alone.ringBlock c i (s.alone.captureBlock c) := by
      unfold State.captureStep
      rw [show s.alone.capture.recording c = Option.none from none,
        show s.alone.capture.ringRegion c = some i from ring]
    refine ⟨_, run, ?_⟩
    rw [step]
    by_cases accepts : Accepts s.capture
    · rw [ringBlock_accepted (s := s.alone) c i _ accepts]
      refine ⟨rfl, Capture.push_regions .., fun _ => ⟨?_, fun busy => ⟨s.alone.captureBlock c, ?_⟩⟩, fun _ full => ?_, fun lent => ?_⟩
      · exact congrArg (s.capture.rings.set c) (accepted_eq _)
      · exact congrArg Capture.buffer (push_busy _ busy)
      · exact absurd accepts.2 (by omega)
      · exact absurd accepts.1 lent
    · by_cases owned : s.capture.lend = .owned
      · rw [ringBlock_dropped (s := s.alone) c i _ accepts owned]
        exact ⟨rfl, rfl, fun h => absurd h accepts, fun _ _ => ⟨rfl, rfl⟩, fun lent => absurd owned lent⟩
      · rw [ringBlock_lent (s := s.alone) c i _ owned]
        exact ⟨rfl, rfl, fun h => absurd h accepts, fun h => absurd h owned, fun _ => rfl⟩

end Sys2Proof.Machine
end

section
/-! PROOFS. The opening of an episode and of its capture (R108, R130 to R133). -/

namespace Sys2Proof.Machine

/-! ### The id of a new capture (R133) -/

theorem mem_held {k : Capture} {d : Descriptor} : d ∈ k.held ↔ ∃ j : Fin 16, k.regions[j].descriptor = some d := by
  unfold Capture.held
  rw [List.mem_filterMap]
  constructor
  · rintro ⟨r, member, found⟩
    obtain ⟨j, inside, rfl⟩ := Vector.mem_iff_getElem.1 (Vector.mem_toList_iff.1 member)
    exact ⟨⟨j, inside⟩, found⟩
  · rintro ⟨j, found⟩
    exact ⟨_, Vector.mem_toList_iff.2 (Vector.getElem_mem j.isLt), found⟩

theorem held_length (k : Capture) : k.held.length ≤ 16 :=
  (List.length_filterMap_le ..).trans Vector.length_toList.le

/-- A capture held has this id. -/
def Capture.hasId (k : Capture) (n : Nat) : Bool := k.held.any fun d => decide (d.id = n)

theorem hasId_iff {k : Capture} {n : Nat} :
    k.hasId n = true ↔ ∃ (j : Fin 16) (d : Descriptor), k.regions[j].descriptor = some d ∧ d.id = n := by
  unfold Capture.hasId
  rw [List.any_eq_true]
  constructor
  · rintro ⟨d, member, same⟩
    obtain ⟨j, found⟩ := mem_held.1 member
    exact ⟨j, d, found, of_decide_eq_true same⟩
  · rintro ⟨j, d, found, same⟩
    exact ⟨d, mem_held.2 ⟨j, found⟩, decide_eq_true same⟩

theorem repeat_succ {α : Type} (f : α → α) (n : Nat) (a : α) : Nat.repeat f (n + 1) a = Nat.repeat f n (f a) := by
  induction n with
  | zero => rfl
  | succ n ih => exact congrArg f ih

/-- Where an id is free within the tries, the first one is given. -/
theorem freeId_first (k : Capture) : ∀ (fuel n t : Nat), t ≤ fuel → k.hasId (Nat.repeat idAfter t n) = false →
    ∃ t', k.freeId fuel n = Nat.repeat idAfter t' n ∧ k.hasId (Nat.repeat idAfter t' n) = false ∧
      ∀ j < t', k.hasId (Nat.repeat idAfter j n) = true := by
  intro fuel
  induction fuel with
  | zero =>
    intro n t none free
    obtain rfl := Nat.le_zero.1 none
    exact ⟨0, rfl, free, fun j h => absurd h (Nat.not_lt_zero j)⟩
  | succ fuel ih =>
    intro n t within free
    have turn : k.freeId (fuel + 1) n = if k.hasId n then k.freeId fuel (idAfter n) else n := rfl
    by_cases taken : k.hasId n = true
    · obtain ⟨t, rfl⟩ : ∃ u, t = u + 1 := Nat.exists_eq_succ_of_ne_zero fun zero => by
        rw [zero] at free
        exact Bool.noConfusion (taken.symm.trans free)
      rw [repeat_succ] at free
      obtain ⟨t', given, free', before⟩ := ih (idAfter n) t (Nat.le_of_succ_le_succ within) free
      refine ⟨t' + 1, by rw [turn, if_pos taken, given, repeat_succ], by rwa [repeat_succ], fun j early => ?_⟩
      cases j with
      | zero => exact taken
      | succ j =>
        rw [repeat_succ]
        exact before j (Nat.lt_of_succ_lt_succ early)
    · exact ⟨0, by rw [turn, if_neg taken]; rfl, Bool.eq_false_iff.2 taken, fun j h => absurd h (Nat.not_lt_zero j)⟩

/-- The ids that are tried, while they do not come round. -/
theorem repeat_idAfter (n : Nat) : ∀ t ≤ 16, (t = 0 → Nat.repeat idAfter t n = n) ∧
    (n < 65535 → n + t ≤ 65535 → Nat.repeat idAfter t n = n + t) ∧
    (n < 65535 → 65535 < n + t → Nat.repeat idAfter t n = n + t - 65535) ∧
    (65535 ≤ n → 0 < t → Nat.repeat idAfter t n = t) := by
  intro t
  induction t with
  | zero => exact fun _ => ⟨fun _ => rfl, fun _ _ => rfl, fun _ _ => by omega, fun _ h => by omega⟩
  | succ t ih =>
    intro within
    have last := ih (by omega)
    have low : Nat.repeat idAfter t n < 65535 → idAfter (Nat.repeat idAfter t n) = Nat.repeat idAfter t n + 1 :=
      fun h => if_pos h
    have high : ¬Nat.repeat idAfter t n < 65535 → idAfter (Nat.repeat idAfter t n) = 1 := fun h => if_neg h
    rw [Nat.repeat]
    omega

/-- Sixteen regions do not hold all of seventeen ids. -/
theorem exists_free_id (k : Capture) (n : Nat) : ∃ t ≤ 16, k.hasId (Nat.repeat idAfter t n) = false := by
  by_contra none
  simp only [not_exists, not_and, Bool.not_eq_false] at none
  have distinct : ((List.range 17).map fun t => Nat.repeat idAfter t n).Nodup := by
    refine List.Nodup.map_on (fun t ht u hu same => ?_) List.nodup_range
    rw [List.mem_range] at ht hu
    have := repeat_idAfter n t (by omega)
    have := repeat_idAfter n u (by omega)
    omega
  have inside : (List.range 17).map (fun t => Nat.repeat idAfter t n) ⊆ k.held.map (·.id) := by
    intro id member
    obtain ⟨t, ht, rfl⟩ := List.mem_map.1 member
    obtain ⟨d, held, same⟩ := List.any_eq_true.1 (none t (by rw [List.mem_range] at ht; omega))
    exact List.mem_map.2 ⟨d, held, of_decide_eq_true same⟩
  have many := (List.subperm_of_subset distinct inside).length_le
  rw [List.length_map, List.length_map, List.length_range] at many
  have := held_length k
  omega

/-- The id a new capture is given (R133). -/
theorem freeId_assigned (k : Capture) (regions : Vector Role 16)
    (same : ∀ n, k.hasId n = true ↔ ∃ (j : Fin 16) (d : Descriptor), regions[j].descriptor = some d ∧ d.id = n) :
    AssignedId regions k.nextId (k.freeId 17 k.nextId) := by
  obtain ⟨t, within, free⟩ := exists_free_id k k.nextId
  obtain ⟨t', given, free', before⟩ := freeId_first k 17 k.nextId t (by omega) free
  rw [← given] at free'
  exact ⟨t', given, fun held => Bool.noConfusion (((same _).2 held).symm.trans free'), fun j early => (same _).1 (before j early)⟩

/-! ### The oldest capture to be discarded (R132) -/

/-- READ_CAPTURE reads this capture. -/
def Capture.reads (k : Capture) (d : Descriptor) : Bool :=
  match k.job with
  | some j => decide (j.id = d.id)
  | none => false

theorem reads_iff (k : Capture) (d : Descriptor) : k.reads d = true ↔ ∃ j, k.job = some j ∧ j.id = d.id := by
  unfold Capture.reads
  cases k.job <;> simp

/-- The capture of a region that is STORED and not being read. -/
def Capture.discardable (k : Capture) (j : Fin 16) : Option Descriptor :=
  match k.regions[j] with
  | .stored d => if k.reads d then none else some d
  | _ => none

/-- The older of the best so far and a region's capture. -/
def olderOf (best : Option (Fin 16 × Descriptor)) (x : Fin 16 × Option Descriptor) : Option (Fin 16 × Descriptor) :=
  match x.2, best with
  | none, _ => best
  | some d, none => some (x.1, d)
  | some d, some b => if d.age < b.2.age then some (x.1, d) else best

theorem oldestStored_foldl (k : Capture) :
    k.oldestStored = (List.finRange 16).foldl (fun best j => olderOf best (j, k.discardable j)) none := by
  unfold Capture.oldestStored
  congr 1
  funext best j
  unfold olderOf Capture.discardable
  cases k.regions[j] with
  | stored d =>
    change (if k.reads d = true then best else _) = match (if k.reads d then none else some d), best with
      | none, _ => best
      | some d, none => some (j, d)
      | some d, some b => if d.age < b.2.age then some (j, d) else best
    cases k.reads d
    · cases best <;> rfl
    · rfl
  | free => rfl
  | ring c => rfl
  | recording d tail => rfl

/-- The one capture older than every other is found. -/
theorem foldl_olderOf {f : Fin 16 → Option Descriptor} {i : Fin 16} {d : Descriptor} (found : f i = some d)
    (oldest : ∀ j d', f j = some d' → j ≠ i → d.age < d'.age) (l : List (Fin 16)) :
    ∀ best, (best = some (i, d) ∨ i ∈ l ∧ ∀ b, best = some b → d.age < b.2.age) →
      l.foldl (fun best j => olderOf best (j, f j)) best = some (i, d) := by
  induction l with
  | nil =>
    rintro best (rfl | ⟨nowhere, -⟩)
    · rfl
    · cases nowhere
  | cons j l ih =>
    intro best start
    refine ih (olderOf best (j, f j)) ?_
    by_cases here : j = i
    · subst here
      left
      rw [found]
      obtain rfl | ⟨-, older⟩ := start
      · exact if_neg (lt_irrefl _)
      · cases best with
        | none => rfl
        | some b => exact if_pos (older b rfl)
    · have other : ∀ d', f j = some d' → d.age < d'.age := fun d' h => oldest j d' h here
      obtain rfl | ⟨member, older⟩ := start
      · left
        cases value : f j with
        | none => rfl
        | some d' => exact if_neg (lt_asymm (other d' value))
      · refine .inr ⟨(List.mem_cons.1 member).resolve_left (Ne.symm here), fun b same => ?_⟩
        cases value : f j with
        | none =>
          rw [value] at same
          exact older b same
        | some d' =>
          rw [value] at same
          cases best with
          | none => cases same; exact other d' value
          | some b' =>
            unfold olderOf at same
            dsimp only at same
            split at same
            · cases same; exact other d' value
            · cases same; exact older _ rfl

theorem oldestStored_eq {k : Capture} {i : Fin 16} {d : Descriptor} (stored : k.regions[i] = .stored d)
    (unread : k.reads d = false)
    (oldest : ∀ (j : Fin 16) (d' : Descriptor), k.regions[j] = .stored d' → j ≠ i → k.reads d' = false → d.age < d'.age) :
    k.oldestStored = some (i, d) := by
  rw [oldestStored_foldl]
  have found : k.discardable i = some d := by
    unfold Capture.discardable
    rw [stored]
    exact if_neg (by rw [unread]; exact Bool.noConfusion)
  refine foldl_olderOf found (fun j d' value other => ?_) _ _ (.inr ⟨List.mem_finRange i, fun b h => nomatch h⟩)
  unfold Capture.discardable at value
  split at value
  next d'' role =>
    split at value
    next => cases value
    next unread' =>
      cases value
      exact oldest j d' role other (Bool.eq_false_iff.2 unread')
  next => cases value

/-! ### Where a capture begins (R130 to R132) -/

/-- The lowest region with a property is found. -/
theorem find_first {k : Capture} {p : Role → Bool} {i : Fin 16} (found : p k.regions[i] = true)
    (first : ∀ j < i, p k.regions[j] = false) : k.find p = some i := by
  unfold Capture.find
  rw [List.find?_eq_some_iff_getElem]
  refine ⟨found, i.val, by simp, by simp, fun j early => ?_⟩
  rw [List.getElem_finRange]
  exact Bool.not_eq_true' _ ▸ first _ early

theorem find_eq_none {k : Capture} {p : Role → Bool} (none : ∀ j : Fin 16, p k.regions[j] = false) :
    k.find p = Option.none := by
  cases look : k.find p with
  | none => rfl
  | some j => exact Bool.noConfusion ((Capture.find_some look).symm.trans (none j))

theorem isRecordingOf_iff (c : Chan) (r : Role) :
    Role.isRecordingOf c r = true ↔ ∃ d tail, r = .recording d tail ∧ d.chan = c := by
  cases r <;> simp [Role.isRecordingOf]

theorem isRecordingOf_false {c : Chan} {r : Role} (h : ∀ d tail, r = .recording d tail → d.chan ≠ c) :
    Role.isRecordingOf c r = false :=
  Bool.eq_false_iff.2 fun yes => by
    obtain ⟨d, tail, role, same⟩ := (isRecordingOf_iff c r).1 yes
    exact h d tail role same

theorem recording_eq_some {k : Capture} {c : Chan} {i : Fin 16} {d : Descriptor} {tail : Option Nat}
    (first : ∀ j < i, ∀ d' tl, k.regions[j] = .recording d' tl → d'.chan ≠ c) (role : k.regions[i] = .recording d tail)
    (same : d.chan = c) : k.recording c = some (i, d, tail) := by
  unfold Capture.recording
  rw [find_first ((isRecordingOf_iff ..).2 ⟨d, tail, role, same⟩) fun j early => isRecordingOf_false (first j early)]
  dsimp only
  rw [role]

theorem recording_eq_none {k : Capture} {c : Chan}
    (none : ∀ (j : Fin 16) (d : Descriptor) (tl : Option Nat), k.regions[j] = .recording d tl → d.chan ≠ c) :
    k.recording c = Option.none := by
  unfold Capture.recording
  rw [find_eq_none fun j => isRecordingOf_false (none j)]

theorem isFree_false {r : Role} (h : r ≠ .free) : Role.isFree r = false := by
  cases r <;> first | rfl | exact absurd rfl h

section Open
variable {u : State} {c : Chan} (episode : Nat) (start : Stamp)

theorem openCapture_merges {i : Fin 16} {d : Descriptor} {tail : Option Nat} (found : u.capture.recording c = some (i, d, tail)) :
    u.openCapture c episode start =
      (u.setRole i (.recording { d with episodeCount := bump 65535 d.episodeCount } none), some d.id) := by
  unfold State.openCapture
  rw [found]

theorem openCapture_lent (none : u.capture.recording c = Option.none) (lent : u.capture.lend ≠ .owned) :
    u.openCapture c episode start = (u.offer (some c) start (.captureMissed episode .lent), Option.none) := by
  unfold State.openCapture
  rw [none]
  exact if_pos lent

theorem openCapture_owned (none : u.capture.recording c = Option.none) (owned : u.capture.lend = .owned) :
    u.openCapture c episode start =
      match u.capture.find Role.isFree with
      | some i => u.startCapture c episode start i
      | Option.none =>
        if u.capture.protect then (u.offer (some c) start (.captureMissed episode .isProtected), Option.none)
        else
          match u.capture.oldestStored with
          | some (i, d) =>
            State.startCapture
              (State.offer { u with capture := u.capture.release i d } (some c) start
                (.captureDiscarded d.id d.chan d.firstEpisode d.episodeCount episode))
              c episode start i
          | Option.none => (u, Option.none) := by
  unfold State.openCapture
  rw [none]
  exact if_neg (not_not.2 owned)

theorem startCapture_eq {ring : Fin 16} (i : Fin 16) (found : u.capture.ringRegion c = some ring) :
    u.startCapture c episode start i =
      ({ u with capture := u.capture.swap c ring i (u.capture.newDescriptor c episode start) },
        some (u.capture.newDescriptor c episode start).id) := by
  unfold State.startCapture
  rw [found]

end Open

/-- What the descriptor of a new capture says (R131). -/
theorem newDescriptor_fields (k : Capture) (c : Chan) (episode : Nat) (start : Stamp) (regions : Vector Role 16)
    (same : ∀ n, k.hasId n = true ↔ ∃ (j : Fin 16) (d : Descriptor), regions[j].descriptor = some d ∧ d.id = n)
    (count : k.held.length = (regions.toList.filterMap Role.descriptor).length) :
    let d := k.newDescriptor c episode start
    let ring := k.rings.get c
    AssignedId regions k.nextId d.id ∧ d.age = (regions.toList.filterMap Role.descriptor).length + 1 ∧
      d.chan = c ∧ d.firstEpisode = episode ∧ d.episodeCount = 1 ∧ d.trigger = start ∧ d.length = d.pre ∧
      d.pre = min ring.fill k.preLength ∧ d.start = (ring.head + (10000 - d.pre)) % 10000 ∧
      d.truncated = false ∧ d.lentGap = false ∧ (d.dropout = true ↔ ∃ a, ring.dropAge = some a ∧ a < d.pre) := by
  refine ⟨freeId_assigned k regions same, congrArg (· + 1) count, rfl, rfl, rfl, rfl, rfl, rfl, rfl, rfl, rfl, ?_⟩
  change (k.rings.get c).droppedWithin _ = true ↔ _
  unfold Ring.droppedWithin
  cases (k.rings.get c).dropAge <;> simp [Capture.newDescriptor]

/-! ### The opening (R108) -/

/-- The episode that opens with the block that has ended. -/
def State.newEpisode (s : State) (c : Chan) (id : Option Nat) : Episode :=
  ⟨s.nextEpisode, s.handed.report.ended, 1, (s.results c).energy, s.blockFLevel c, s.handed.report.ended, id⟩

/-- An opening up to its EPISODE_OPEN, before the capture controller is told. -/
def State.announced (s : State) (c : Chan) (limit : Int) : State :=
  State.offer
    (State.setMonitor { s with nextEpisode := next32 s.nextEpisode } c
      { s.monitor.get c with
        phase := .opened, episode := some (s.newEpisode c none)
        episodesOpened := bump max32 (s.monitor.get c).episodesOpened })
    (some c) s.handed.report.ended (.episodeOpen s.nextEpisode (s.blockFLevel c) limit)

theorem announced_capture (s : State) (c : Chan) (limit : Int) : (s.announced c limit).capture = s.capture := by
  unfold State.announced
  rw [offer_capture]
  rfl

theorem announced_offers (s : State) (c : Chan) (limit : Int) :
    Offers s (s.announced c limit)
      [⟨some c, s.handed.report.ended, .episodeOpen s.nextEpisode (s.blockFLevel c) limit⟩] :=
  (Offers.one _ _ _ _).before rfl rfl

/-- An opening, from what the capture controller makes of it. -/
theorem openEpisode_opens {s : State} {c : Chan} {limit : Int} {v : State} {id : Option Nat}
    (told : (s.announced c limit).openCapture c s.nextEpisode s.handed.report.ended = (v, id)) :
    (s.openEpisode c limit).nextEpisode = next32 s.nextEpisode ∧
      (s.openEpisode c limit).monitor = s.monitor.set c
        { s.monitor.get c with
          phase := .opened, episode := some (s.newEpisode c id)
          episodesOpened := bump max32 (s.monitor.get c).episodesOpened } ∧
      (s.openEpisode c limit).capture = v.capture ∧ (s.openEpisode c limit).report = v.report ∧
      (s.openEpisode c limit).fifo = v.fifo := by
  have whole : s.openEpisode c limit =
      State.setMonitor v c { v.monitor.get c with episode := some (s.newEpisode c id) } := by
    change (let r := (s.announced c limit).openCapture c s.nextEpisode s.handed.report.ended
      r.1.setMonitor c { r.1.monitor.get c with episode := some (s.newEpisode c r.2) }) = _
    rw [told]
  have next := openCapture_nextEpisode (s.announced c limit) c s.nextEpisode s.handed.report.ended
  have monitor := openCapture_monitor (s.announced c limit) c s.nextEpisode s.handed.report.ended
  rw [told] at next monitor
  have monitor : v.monitor = s.monitor.set c _ := monitor.trans (offer_monitor ..)
  rw [whole]
  refine ⟨next.trans (offer_nextEpisode ..), ?_, rfl, rfl, rfl⟩
  change v.monitor.set c _ = _
  rw [monitor, Quad.set_set, Quad.get_set_same]

/-- With a considered block above the episode threshold the episode step of a channel in IDLE is the opening (R108). -/
theorem episodeStep_opens {s : State} {c : Chan} {th : EpisodeThreshold} (idle : (s.monitor.get c).episode = none)
    (lmax : (s.monitor.get c).lmax = some th) (included : s.handed.classes.get c ≠ .excluded)
    (settled : (s.handed.results.get c).fSettled = true) (above : th.y < (s.handed.results.get c).yF) :
    s.episodeStep c = s.openEpisode c th.limit := by
  have considered : s.considered c = true := by
    unfold State.considered
    rw [included_iff.2 included, lmax, show (s.results c).fSettled = true from settled]
    rfl
  unfold State.episodeStep
  rw [idle, lmax]
  exact if_pos ⟨considered, above⟩

theorem movesUp_younger (age : Nat) (r : Role) : MovesUp age r (r.younger age) := by
  cases r with
  | recording d tail => exact ⟨fun _ _ h => by cases h; rfl, fun _ h => (nomatch h), fun h => (nomatch h)⟩
  | stored d => exact ⟨fun _ _ h => (nomatch h), fun _ h => by cases h; rfl, fun h => (nomatch h)⟩
  | ring c => exact ⟨fun _ _ h => (nomatch h), fun _ h => (nomatch h), fun _ => rfl⟩
  | free => exact ⟨fun _ _ h => (nomatch h), fun _ h => (nomatch h), fun _ => rfl⟩

theorem younger_descriptor (age : Nat) (r : Role) :
    (r.younger age).descriptor = r.descriptor.map fun d => if age < d.age then { d with age := d.age - 1 } else d := by
  cases r <;> rfl

/-- The captures held once one has become FREE are the others, each with its id. -/
theorem release_hasId (k : Capture) (i : Fin 16) (d : Descriptor) (n : Nat) :
    (k.release i d).hasId n = true ↔
      ∃ (j : Fin 16) (d' : Descriptor), (k.regions.set i .free)[j].descriptor = some d' ∧ d'.id = n := by
  rw [hasId_iff]
  have region (j : Fin 16) : (k.release i d).regions[j] = ((k.regions.set i .free)[j]).younger d.age :=
    Vector.getElem_map _ j.isLt
  simp only [region, younger_descriptor]
  constructor
  · rintro ⟨j, d', found, same⟩
    obtain ⟨d'', was, rfl⟩ := Option.map_eq_some_iff.1 found
    refine ⟨j, d'', was, ?_⟩
    rw [← same]
    split <;> rfl
  · rintro ⟨j, d', found, same⟩
    refine ⟨j, _, by rw [found]; rfl, ?_⟩
    rw [← same]
    dsimp only
    split <;> rfl

theorem release_held_length (k : Capture) (i : Fin 16) (d : Descriptor) :
    (k.release i d).held.length = ((k.regions.set i .free).toList.filterMap Role.descriptor).length := by
  have roles : (k.release i d).regions.toList = (k.regions.set i .free).toList.map (Role.younger d.age) :=
    Vector.toList_map ..
  unfold Capture.held
  rw [roles, List.filterMap_map, show Role.descriptor ∘ Role.younger d.age = _ from funext (younger_descriptor d.age),
    ← List.map_filterMap, List.length_map]

/-- The regions after a swap (R131). -/
theorem swap_regions (k : Capture) (c : Chan) {ring i : Fin 16} (d : Descriptor) (apart : ring ≠ i) :
    (k.swap c ring i d).regions[i] = .ring c ∧ (k.swap c ring i d).regions[ring] = .recording d none ∧
      ∀ j : Fin 16, j ≠ i → j ≠ ring → (k.swap c ring i d).regions[j] = k.regions[j] := by
  have apart : i.val ≠ ring.val := fun e => apart (Fin.ext e.symm)
  refine ⟨by simp [Capture.swap], by simp [Capture.swap, apart], fun j other other' => ?_⟩
  have other : i.val ≠ j.val := fun e => other (Fin.ext e.symm)
  have other' : ring.val ≠ j.val := fun e => other' (Fin.ext e.symm)
  simp [Capture.swap, other, other']

/-- Settles O38: the opening, by where its capture begins. -/
theorem episodeOpensWithCapture : Obligations.EpisodeOpensWithCapture := by
  intro s c th
  dsimp only
  intro due idle lmax included settled above
  have run : exec .blockEnd s = .next (s.alone.openEpisode c th.limit).endOfBlock := by
    refine exec_blockEnd ((finishBlock_of_one due).trans (congrArg State.endOfBlock ?_))
    exact episodeStep_opens (s := s.alone) idle lmax included settled above
  have capture : (s.alone.announced c th.limit).capture = s.capture := announced_capture s.alone c th.limit
  have announces := announced_offers s.alone c th.limit
  have after {v : State} {id : Option Nat} {ns : List Notice}
      (told : (s.alone.announced c th.limit).openCapture c s.nextEpisode s.handed.report.ended = (v, id))
      (offers : Offers (s.alone.announced c th.limit) v ns) (few : ns.length ≤ 1) :
      ((s.alone.openEpisode c th.limit).endOfBlock.nextEpisode = (s.nextEpisode + 1) % 2 ^ 32 ∧
        (s.alone.openEpisode c th.limit).endOfBlock.monitor = s.monitor.set c
          { s.monitor.get c with
            phase := .opened
            episode := some ⟨s.nextEpisode, s.handed.report.ended, 1, (s.handed.results.get c).energy,
              level (s.store.active.chan.get c).k (s.handed.results.get c).yF 48, s.handed.report.ended, id⟩
            episodesOpened := min 4294967295 ((s.monitor.get c).episodesOpened + 1) }) ∧
      (TakesEvents s.report 2 → (s.alone.openEpisode c th.limit).endOfBlock.report.events = s.report.events ++
        ⟨some c, s.handed.report.ended, .episodeOpen s.nextEpisode
          (level (s.store.active.chan.get c).k (s.handed.results.get c).yF 48) th.limit⟩ :: ns) ∧
      (s.alone.openEpisode c th.limit).endOfBlock.capture = { v.capture with closeBlock := .same false } := by
    obtain ⟨next, monitor, capture, report, fifo⟩ := openEpisode_opens (s := s.alone) told
    refine ⟨⟨next, monitor⟩, fun room => ?_, congrArg (fun k : Capture => { k with closeBlock := .same false }) capture⟩
    have all := (announces.trans offers).after report fifo
    have size (x : Notice) : ([x] ++ ns).length + (1 - ns.length) = 2 := by
      rw [List.length_append, List.length_singleton]
      omega
    exact congrArg ReportQueue.events (all (1 - ns.length) (by rw [size]; exact room)).2
  refine ⟨_, run, fun i d tail first role same => ?_, fun none => ?_⟩
  · have told := openCapture_merges (u := s.alone.announced c th.limit) s.nextEpisode s.handed.report.ended
      (by rw [capture]; exact recording_eq_some (fun j early d' tl => first j d' tl early) role same)
    obtain ⟨opened, offers, captured⟩ := after told (Offers.none rfl rfl) (Nat.zero_le _)
    rw [captured]
    refine ⟨opened, offers, ?_⟩
    change (s.alone.announced c th.limit).capture.regions.set i _ = _ ∧ (s.alone.announced c th.limit).capture.rings = _ ∧
      (s.alone.announced c th.limit).capture.nextId = _
    rw [capture]
    exact ⟨rfl, rfl, rfl⟩
  · have none : (s.alone.announced c th.limit).capture.recording c = Option.none := by
      rw [capture]
      exact recording_eq_none none
    refine ⟨fun lent => ?_, fun owned kept full => ?_, fun ring owned unique => ⟨fun i free first => ?_,
      fun i d unkept full stored unread oldest => ?_⟩⟩
    · have told := openCapture_lent s.nextEpisode s.handed.report.ended none (by rw [capture]; exact lent)
      obtain ⟨opened, offers, captured⟩ := after told (Offers.one _ _ _ _) le_rfl
      rw [captured, offer_capture, capture]
      exact ⟨opened, offers, rfl⟩
    · have told := openCapture_owned s.nextEpisode s.handed.report.ended none (by rw [capture]; exact owned)
      rw [capture, find_eq_none fun j => isFree_false (full j)] at told
      obtain ⟨opened, offers, captured⟩ := after (told.trans (if_pos kept)) (Offers.one _ _ _ _) le_rfl
      rw [captured, offer_capture, capture]
      exact ⟨opened, offers, rfl⟩
    · have told := openCapture_owned s.nextEpisode s.handed.report.ended none (by rw [capture]; exact owned)
      rw [capture, find_first (by rw [free]; rfl) fun j early => isFree_false (first j early)] at told
      have found : s.capture.ringRegion c = some ring :=
        find_unique ((isRingOf_iff ..).2 ((unique ring).2 rfl)) fun j h => (unique j).1 ((isRingOf_iff ..).1 h)
      have start := startCapture_eq (u := s.alone.announced c th.limit) s.nextEpisode s.handed.report.ended i
        (by rw [capture]; exact found)
      rw [capture] at start
      obtain ⟨opened, offers, captured⟩ := after (told.trans start) (Offers.none rfl rfl) (Nat.zero_le _)
      obtain ⟨id, age, fields⟩ := newDescriptor_fields s.capture c s.nextEpisode s.handed.report.ended s.capture.regions
        (fun n => hasId_iff) rfl
      rw [captured]
      exact ⟨_, ⟨opened, id, age, rfl, rfl, fields⟩, offers, rfl⟩
    · have none_ : ∀ j : Fin 16, Role.isFree s.capture.regions[j] = false := fun j => isFree_false (full j)
      have told := openCapture_owned s.nextEpisode s.handed.report.ended none (by rw [capture]; exact owned)
      rw [capture, find_eq_none none_, oldestStored_eq stored (Bool.eq_false_iff.2 fun h => unread ((reads_iff ..).1 h))
        fun j d' role other free => oldest j d' role other fun h => Bool.noConfusion (((reads_iff ..).2 h).symm.trans free)] at told
      have told := told.trans (if_neg (by rw [unkept]; exact Bool.noConfusion))
      have role (j : Fin 16) : (s.capture.release i d).regions[j] = if j = i then .free else (s.capture.regions[j]).younger d.age :=
        Capture.release_regions j
      have ring_ne : ring ≠ i := fun same => by
        have := (unique ring).2 rfl
        rw [same, stored] at this
        cases this
      have found : (s.capture.release i d).ringRegion c = some ring := by
        refine find_unique ?_ fun j h => ?_
        · rw [role, if_neg ring_ne, Role.isRingOf_younger]
          exact (isRingOf_iff ..).2 ((unique ring).2 rfl)
        · rw [role] at h
          split at h
          · cases h
          · rw [Role.isRingOf_younger] at h
            exact (unique j).1 ((isRingOf_iff ..).1 h)
      let w := State.offer { s.alone.announced c th.limit with capture := s.capture.release i d } (some c)
        s.handed.report.ended (.captureDiscarded d.id d.chan d.firstEpisode d.episodeCount s.nextEpisode)
      have released : w.capture = s.capture.release i d := offer_capture ..
      have start := startCapture_eq (u := w) s.nextEpisode s.handed.report.ended i (by rw [released]; exact found)
      have offers : Offers (s.alone.announced c th.limit) w _ := (Offers.one _ _ _ _).before rfl rfl
      obtain ⟨opened, offers, captured⟩ := after (told.trans start) (offers.after rfl rfl) le_rfl
      obtain ⟨id, age, chan, fields⟩ := newDescriptor_fields (s.capture.release i d) c s.nextEpisode s.handed.report.ended
        (s.capture.regions.set i .free) (release_hasId s.capture i d) (release_held_length s.capture i d)
      rw [captured]
      dsimp only
      rw [released] at opened ⊢
      obtain ⟨atFree, atRing, others⟩ := swap_regions (s.capture.release i d) c
        ((s.capture.release i d).newDescriptor c s.nextEpisode s.handed.report.ended) ring_ne
      refine ⟨_, ⟨opened, id, age, rfl, rfl, chan, fields⟩, atFree, atRing, fun j other other' => ?_, offers⟩
      have same := (others j other other').trans ((role j).trans (if_neg other))
      rw [same]
      exact movesUp_younger d.age _

end Sys2Proof.Machine
end

section
/-! PROOFS. The check engine's block work (R151 to R154), alone and among the steps of a block end. -/

namespace Sys2Proof.Machine

/-! ### What a boundary without a commit leaves (R84) -/

/-- Range controllers, units, store and check engine are the same in two states. -/
def SameChannels (s u : State) : Prop :=
  u.check = s.check ∧ u.range = s.range ∧ u.unit = s.unit ∧ u.store = s.store

theorem enterHeld_sameChannels {s : State} (free : s.store.commitPending = false) (pick : Nat → Nat) (closed : Option Nat) :
    SameChannels s (s.enterHeld pick closed) := by
  unfold State.enterHeld SameChannels
  simp [free]

theorem enterMeasuring_sameChannels {s : State} (free : s.store.commitPending = false) (pick : Nat → Nat) :
    SameChannels s (s.enterMeasuring pick) := by
  unfold State.enterMeasuring SameChannels
  simp [free]

theorem boundaryStep_sameChannels {s : State} (free : s.store.commitPending = false) (pick : Nat → Nat) :
    SameChannels s (s.boundaryStep pick) := by
  have held {u : State} (same : SameChannels s u) (closed : Option Nat) : SameChannels s (u.enterHeld pick closed) := by
    obtain ⟨check, range, unit, store⟩ := same
    obtain ⟨check', range', unit', store'⟩ := enterHeld_sameChannels (s := u) (by rw [store]; exact free) pick closed
    exact ⟨check'.trans check, range'.trans range, unit'.trans unit, store'.trans store⟩
  have measuring {u : State} (same : SameChannels s u) : SameChannels s (u.enterMeasuring pick) := by
    obtain ⟨check, range, unit, store⟩ := same
    obtain ⟨check', range', unit', store'⟩ := enterMeasuring_sameChannels (s := u) (by rw [store]; exact free) pick
    exact ⟨check'.trans check, range'.trans range, unit'.trans unit, store'.trans store⟩
  have self : SameChannels s s := ⟨rfl, rfl, rfl, rfl⟩
  have carried : SameChannels s s.carryClock := ⟨rfl, rfl, rfl, rfl⟩
  have closed (iv : Interval) (cause : CloseCause) : SameChannels s (s.closeInterval iv cause) := by
    unfold SameChannels
    simp
  have opening : SameChannels s (s.openingBoundary pick) := by
    unfold State.openingBoundary
    split
    · refine held ?_ _
      split
      · exact carried
      · exact self
    · exact measuring self
  unfold State.boundaryStep
  split
  next iv _ =>
    split
    next cause _ =>
      dsimp only
      split
      · exact held (closed iv cause) _
      · exact measuring (closed iv cause)
    next => exact self
  next =>
    split
    · exact opening
    · split
      · exact carried
      · exact self

/-- A step that is neither the engine's nor a boundary with a commit leaves store and check engine alone. -/
theorem runTask_sameCheck {t : Task} {s : State} (other : t ≠ .engine) (free : t = .boundary → s.store.commitPending = false) :
    (runTask Config.pick t s).check = s.check ∧ (runTask Config.pick t s).store = s.store := by
  cases t with
  | engine => exact absurd rfl other
  | boundary =>
    obtain ⟨check, -, -, store⟩ := boundaryStep_sameChannels (free rfl) Config.pick
    exact ⟨check, store⟩
  | _ => simp [runTask]

/-- A step that is no unit's own leaves what a unit handed alone. -/
theorem runTask_results {t : Task} {s : State} {c : Chan} (other : t ≠ .weigh c) :
    (runTask Config.pick t s).results c = s.results c := by
  cases t with
  | weigh d =>
    have apart : c ≠ d := fun same => other (congrArg Task.weigh same.symm)
    simp [runTask, State.handBlock, State.results, State.setResults, State.setUnit, State.setRange, apart]
  | clock =>
    unfold State.results runTask State.clockStep
    dsimp only
    split <;> rfl
  | classify => rfl
  | _ => simp [runTask, State.results]

/-! ### The rows of R151 -/

section Engine
variable {s : State} {p : CheckParams}

theorem checkStepKind_settling (settling : s.check.phase = .settling) (params : s.check.params = some p) :
    s.checkStepKind = if (s.results p.chan).overload then .overload
      else if 1000 ≤ s.check.counter + 1 then .settled else .settles := by
  unfold State.checkStepKind
  rw [settling, params]
  rfl

theorem checkStepKind_collecting (collecting : s.check.phase = .collecting) (params : s.check.params = some p) :
    s.checkStepKind = if (s.results p.chan).overload then .overload
      else if p.measureTime ≤ s.check.counter + 1 then .completes else .collects := by
  unfold State.checkStepKind
  rw [collecting, params]

theorem checkStepKind_idle (idle : s.check.phase = .idle) : s.checkStepKind = .idle := by
  unfold State.checkStepKind
  rw [idle]

theorem checkStepKind_overload (running : Running s p) (overload : (s.results p.chan).overload = true) :
    s.checkStepKind = .overload := by
  obtain ⟨busy, params⟩ := running
  cases phase : s.check.phase with
  | idle => exact absurd phase busy
  | settling => rw [checkStepKind_settling phase params, if_pos overload]
  | collecting => rw [checkStepKind_collecting phase params, if_pos overload]

theorem engineStep_settles (kind : s.checkStepKind = .settles) :
    s.engineStep = { s with check := { s.check with counter := s.check.counter + 1 } } := by
  unfold State.engineStep
  rw [kind]

theorem engineStep_settled (kind : s.checkStepKind = .settled) :
    s.engineStep = { s with check := { s.check with phase := .collecting, counter := 0, sum := 0 } } := by
  unfold State.engineStep
  rw [kind]

theorem engineStep_collects (kind : s.checkStepKind = .collects) (params : s.check.params = some p) :
    s.engineStep = { s with check := { s.check with counter := s.check.counter + 1, sum := s.collected p } } := by
  unfold State.engineStep
  rw [kind, params]

theorem engineStep_completes (kind : s.checkStepKind = .completes) (params : s.check.params = some p) :
    s.engineStep = s.finishCheck p (s.collected p) (s.check.counter + 1) s.handed.report.ended := by
  unfold State.engineStep
  rw [kind, params]

theorem engineStep_overload (kind : s.checkStepKind = .overload) :
    s.engineStep = s.cutCheck .overload s.handed.report.ended := by
  unfold State.engineStep
  rw [kind]

theorem collected_eq : s.collected p = s.check.sum + (match p.source with
    | .calibrator => (s.results p.chan).energy
    | .internal => (s.results p.chan).checkEnergy) := rfl

/-- What an overload leaves of a running check (R151, R154). -/
theorem engineStep_overloaded (running : Running s p) (overload : (s.results p.chan).overload = true) :
    s.engineStep.check = ⟨.idle, none, 0, 0, some (cutRecord s p .overload (s.store.staged.chan.get p.chan).k)⟩ ∧
      (s.engineStep.range.get p.chan).frozen = false ∧
      Offers s s.engineStep [⟨some p.chan, s.handed.report.ended,
        .checkDone (cutRecord s p .overload (s.store.staged.chan.get p.chan).k)⟩] := by
  rw [engineStep_overload (checkStepKind_overload running overload)]
  refine ⟨?_, ?_, cutCheck_offers (result := .overload) running (by decide) (by decide) _⟩
  · rw [cutCheck_running (result := .overload) running (by decide) (by decide), offer_check]
  · rw [cutCheck_running (result := .overload) running (by decide) (by decide), offer_range]
    refine (congrArg RangeCtl.frozen (releaseChannel_range s p.chan p.chan)).trans ?_
    rw [if_pos rfl]

end Engine

/-! ### The engine among the steps of a block end -/

/-- A step that is no range controller's, no unit's, not the engine's and no boundary with a commit leaves the range controllers
alone. -/
theorem runTask_sameRange {t : Task} {s : State} (other : t ≠ .engine) (notRange : ∀ c, t ≠ .range c ∧ t ≠ .weigh c)
    (free : t = .boundary → s.store.commitPending = false) : (runTask Config.pick t s).range = s.range := by
  cases t with
  | engine => exact absurd rfl other
  | range c => exact absurd rfl (notRange c).1
  | weigh c => exact absurd rfl (notRange c).2
  | boundary => exact (boundaryStep_sameChannels (free rfl) Config.pick).2.1
  | _ => simp [runTask]

/-- From `s`, with the check with parameters `p`, the engine's block work is done in `u` (R151, R154). -/
def EngineTaken (s : State) (p : CheckParams) (u : State) : Prop :=
  let x := u.handed.results.get p.chan
  let e := s.check
  (e.phase = .settling → x.overload = false →
    (e.counter + 1 < 1000 → u.check = { e with counter := e.counter + 1 }) ∧
    (e.counter = 999 → u.check = ⟨.collecting, some p, 0, 0, e.last⟩)) ∧
  (e.phase = .collecting → x.overload = false → e.counter + 1 < p.measureTime →
    u.check = { e with
      counter := e.counter + 1
      sum := e.sum + (match p.source with
        | .calibrator => x.energy
        | .internal => x.checkEnergy) }) ∧
  (e.phase ≠ .idle → x.overload = true →
    u.check = ⟨.idle, none, 0, 0, some (cutRecord s p .overload (s.store.staged.chan.get p.chan).k)⟩ ∧
      (u.range.get p.chan).frozen = false)

theorem EngineTaken.congr {s u v : State} {p : CheckParams} (h : EngineTaken s p u) (results : v.results p.chan = u.results p.chan)
    (check : v.check = u.check) (range : v.range = u.range) : EngineTaken s p v := by
  have results : v.handed.results.get p.chan = u.handed.results.get p.chan := results
  unfold EngineTaken at *
  rw [results, check, range]
  exact h

/-- The engine's step does the engine's work. -/
theorem engineStep_taken {s u : State} {p : CheckParams} (params : s.check.params = some p) (check : u.check = s.check)
    (store : u.store = s.store) : EngineTaken s p u.engineStep := by
  have params' : u.check.params = some p := by rw [check]; exact params
  unfold EngineTaken
  rw [engineStep_handed]
  refine ⟨fun settling calm => ⟨fun short => ?_, fun last => ?_⟩, fun collecting calm short => ?_, fun busy overload => ?_⟩
  · have kind := checkStepKind_settling (s := u) (by rw [check]; exact settling) params'
    rw [if_neg (Bool.eq_false_iff.1 (show (u.results p.chan).overload = false from calm)), check, if_neg (by omega)] at kind
    rw [engineStep_settles kind, check]
  · have kind := checkStepKind_settling (s := u) (by rw [check]; exact settling) params'
    rw [if_neg (Bool.eq_false_iff.1 (show (u.results p.chan).overload = false from calm)), check, if_pos (by omega)] at kind
    rw [engineStep_settled kind, check]
    dsimp only
    rw [params]
  · have kind := checkStepKind_collecting (s := u) (by rw [check]; exact collecting) params'
    rw [if_neg (Bool.eq_false_iff.1 (show (u.results p.chan).overload = false from calm)), check, if_neg (by omega)] at kind
    rw [engineStep_collects kind params', collected_eq, check]
    rfl
  · have running : Running u p := ⟨by rw [check]; exact busy, params'⟩
    obtain ⟨ended, thawed, -⟩ := engineStep_overloaded running overload
    refine ⟨?_, thawed⟩
    rw [ended, store]
    unfold cutRecord
    rw [check]

/-- The engine's work among the steps still due: not yet done, or done with what it waits for. -/
structure EngineDue (s : State) (p : CheckParams) (left : List Task) (u : State) : Prop where
  nodup : left.Nodup
  free : .boundary ∈ left → u.store.commitPending = false
  waiting : .engine ∈ left → u.check = s.check ∧ u.store = s.store
  taken : .engine ∉ left → (∀ c, .range c ∉ left ∧ .weigh c ∉ left) ∧ EngineTaken s p u

theorem engineDue_taskKept {s : State} {p : CheckParams} (params : s.check.params = some p) : TaskKept (EngineDue s p) := by
  intro u l t due mem first h
  have nodup : (l.erase t).Nodup := h.nodup.erase t
  by_cases engine : t = .engine
  · subst engine
    obtain ⟨check, store⟩ := h.waiting mem
    have gone (v : Task) (waits : v.before .engine = true) : v ∉ l.erase .engine := fun left =>
      Bool.noConfusion (waits.symm.trans (first v (List.mem_of_mem_erase left)))
    refine ⟨nodup, fun boundary => ?_, fun again => absurd again h.nodup.not_mem_erase, fun _ =>
      ⟨fun c => ⟨gone _ rfl, gone _ rfl⟩, ?_⟩⟩
    · have free := h.free (List.mem_of_mem_erase boundary)
      obtain same | ⟨c, k, -, -, -, new⟩ | commit := runTask_store Config.pick .engine { u with blockWork := some (l.erase .engine) }
      · rw [same]; exact free
      · rw [new]; exact free
      · rw [commit]
        unfold Store.atBoundary
        split
        · rfl
        · exact free
    · exact engineStep_taken (u := { u with blockWork := some (l.erase .engine) }) params check store
  · have free (boundary : t = .boundary) : u.store.commitPending = false := h.free (boundary ▸ mem)
    obtain ⟨check, store⟩ := runTask_sameCheck (s := { u with blockWork := some (l.erase t) }) engine free
    have stays : .engine ∈ l.erase t ↔ .engine ∈ l := List.mem_erase_of_ne (Ne.symm engine)
    refine ⟨nodup, fun boundary => ?_, fun waits => ?_, fun done => ?_⟩
    · rw [store]
      exact h.free (List.mem_of_mem_erase boundary)
    · rw [check, store]
      exact h.waiting (stays.1 waits)
    · obtain ⟨gone, taken⟩ := h.taken fun waits => done (stays.2 waits)
      have other (c : Chan) : t ≠ .range c ∧ t ≠ .weigh c :=
        ⟨fun same => (gone c).1 (same ▸ mem), fun same => (gone c).2 (same ▸ mem)⟩
      refine ⟨fun c => ⟨fun left => (gone c).1 (List.mem_of_mem_erase left), fun left => (gone c).2 (List.mem_of_mem_erase left)⟩,
        EngineTaken.congr (u := { u with blockWork := some (l.erase t) }) ?_ (runTask_results (other p.chan).2) check
          (runTask_sameRange engine other free)⟩
      exact taken.congr rfl rfl rfl

/-! ### The result (R152 to R154) -/

/-- s_exp said outright (R150). -/
theorem testSquare_eq (amplitude gain : Nat) : testSquare amplitude gain = amplitude ^ 2 * 16 ^ (4 - gain) / 2 ^ 16 := by
  have square : ((normalise gain amplitude).natAbs) ^ 2 = amplitude ^ 2 * 16 ^ (4 - gain) := by
    have value : (normalise gain (amplitude : Int)).natAbs = amplitude * 4 ^ (4 - gain) := by
      unfold normalise
      rw [Int.natAbs_mul, Int.natAbs_natCast, Int.natAbs_pow]
      rfl
    rw [value, mul_pow, ← pow_mul, mul_comm (4 - gain) 2, pow_mul]
    norm_num
  unfold testSquare squareOf
  rw [square]

/-- The verdict over a level and its deviation (R152). -/
theorem verdict_eq (p : CheckParams) (measured dev : Int) :
    p.verdict (if measured = -32768 then none else some dev) =
      if measured ≠ -32768 ∧ |dev| ≤ p.tolerance then .pass else .fail := by
  unfold CheckParams.verdict
  by_cases silent : measured = -32768
  · rw [if_pos silent, if_neg fun h => h.1 silent]
  · rw [if_neg silent]
    simp only [Int.abs_eq_natAbs, Nat.cast_le, silent, ne_eq, not_false_eq_true, true_and]

/-- The outcome of the adjustment over a level and its deviation (R153). -/
theorem adjustment_eq (p : CheckParams) (pending : Bool) (k measured dev : Int) :
    p.adjustment pending k (if measured = -32768 then none else some dev) =
      if p.adjust = false then .notAsked
      else if p.source = .internal then .notCalibrator
      else if measured = -32768 then .noSignal
      else if 300 < |dev| then .outOfWindow
      else if pending = true then .commitPending
      else if k - dev < -10000 ∨ 15000 < k - dev then .kRange
      else .made := by
  have window : 300 < dev.natAbs ↔ 300 < |dev| := by rw [Int.abs_eq_natAbs]; exact Nat.cast_lt.symm
  unfold CheckParams.adjustment
  by_cases silent : measured = -32768
  · simp only [if_pos silent]
  · simp only [if_neg silent, window]

/-- A result that was formed carries its adjustment (R153). -/
theorem ending_adjustment (p : CheckParams) (measured expected : Int) (d : Option Int) (pending : Bool) (k : Int) :
    (⟨p.verdict d, measured, expected, d⟩ : Ending).adjustment p pending k = p.adjustment pending k d := by
  have verdict : p.verdict d = .pass ∨ p.verdict d = .fail := by
    unfold CheckParams.verdict
    cases d with
    | none => exact .inr rfl
    | some x =>
      dsimp only
      split
      · exact .inl rfl
      · exact .inr rfl
  unfold Ending.adjustment
  dsimp only
  obtain verdict | verdict := verdict <;> rw [verdict]

/-- The staged K after an adjustment, which stays without one (R153). -/
theorem adjustK_staged (s : State) (c : Chan) {outcome : Adjustment} {d : Option Int} {dev : Int}
    (made : outcome = .made → d = some dev) :
    (s.adjustK c outcome d).store =
      s.store.withStagedK c (if outcome = .made then s.k c - dev else (s.store.staged.chan.get c).k) := by
  unfold State.adjustK
  by_cases done : outcome = .made
  · rw [if_pos done, made done, done]
    rfl
  · rw [if_neg done]
    have same : s.store.withStagedK c (s.store.staged.chan.get c).k = s.store := by
      unfold Store.withStagedK
      cases c <;> rfl
    rw [same]
    cases outcome with
    | made => exact absurd rfl done
    | _ => rfl

/-- What the end of a check with its result leaves (R152 to R154). -/
theorem finishCheck_ends {s : State} {p : CheckParams} (running : Running s p) (sum counted : Nat) (stamp : Stamp)
    {measured expected : Int}
    (measures : p.measure (s.k p.chan) sum =
      (measured, expected, if measured = -32768 then none else some (measured - expected)))
    {outcome : Adjustment}
    (adjusts : p.adjustment s.store.commitPending (s.k p.chan)
      (if measured = -32768 then none else some (measured - expected)) = outcome) {k : Int}
    (adjusted : (if outcome = .made then s.k p.chan - (measured - expected) else (s.store.staged.chan.get p.chan).k) = k)
    {r : CheckRecord}
    (record : r = ⟨p.chan, p.source, p.verdict (if measured = -32768 then none else some (measured - expected)), measured,
      expected, (if measured = -32768 then none else some (measured - expected)), p.tolerance, p.measureTime, counted, outcome,
      k⟩) :
    let t := s.finishCheck p sum counted stamp
    t.blockWork = s.blockWork ∧ t.check = ⟨.idle, none, 0, 0, some r⟩ ∧ t.store = s.store.withStagedK p.chan k ∧
      t.range = s.range.set p.chan { s.range.get p.chan with frozen := false } ∧
      t.unit = s.unit.set p.chan (s.unit.get p.chan).clearAll ∧
      Offers s t [⟨some p.chan, stamp, .checkDone r⟩] := by
  have made : outcome = .made →
      (if measured = -32768 then none else some (measured - expected)) = some (measured - expected) := by
    intro made
    refine if_neg fun silent => ?_
    rw [made, if_pos silent] at adjusts
    unfold CheckParams.adjustment at adjusts
    split_ifs at adjusts
  have staged := adjustK_staged (s.releaseChannel p.chan) p.chan made
  rw [show (s.releaseChannel p.chan).store = s.store from rfl, show (s.releaseChannel p.chan).k p.chan = s.k p.chan from rfl,
    adjusted] at staged
  have ends := endCheck_running running
    ⟨p.verdict (if measured = -32768 then none else some (measured - expected)), measured, expected,
      if measured = -32768 then none else some (measured - expected)⟩ counted stamp
    ((ending_adjustment ..).trans adjusts) (r := r) (by
      unfold State.checkRecord
      rw [staged, record]
      unfold Store.withStagedK
      rw [Quad.get_set_same])
  have whole : s.finishCheck p sum counted stamp = s.endCheck
      ⟨p.verdict (if measured = -32768 then none else some (measured - expected)), measured, expected,
        if measured = -32768 then none else some (measured - expected)⟩ counted stamp := by
    unfold State.finishCheck
    rw [measures]
  dsimp only
  rw [whole, ends]
  refine ⟨?_, ?_, ?_, ?_, ?_, (Offers.one _ _ _ _).before ?_ ?_⟩
  · rw [offer_blockWork]
    exact adjustK_blockWork ..
  · rw [offer_check]
  · rw [offer_store]
    exact staged
  · rw [offer_range]
    exact adjustK_range ..
  · rw [offer_unit]
    exact adjustK_unit ..
  · exact adjustK_report ..
  · exact adjustK_fifo ..

/-- The deviation of a result (R152). -/
theorem measure_eq (p : CheckParams) (k : Int) (sum : Nat) :
    p.measure k sum =
      (level k sum (48 * p.measureTime),
        (match p.source with
          | .calibrator => p.expected
          | .internal => level k (48 * p.measureTime * (p.amplitude ^ 2 * 16 ^ (4 - p.gain) / 2 ^ 16)) (48 * p.measureTime)),
        if level k sum (48 * p.measureTime) = -32768 then none
        else some (level k sum (48 * p.measureTime) - (match p.source with
          | .calibrator => p.expected
          | .internal => level k (48 * p.measureTime * (p.amplitude ^ 2 * 16 ^ (4 - p.gain) / 2 ^ 16)) (48 * p.measureTime)))) := by
  unfold CheckParams.measure
  rw [testSquare_eq]
  rfl

/-- Settles O43: the engine's step among those due, and its rows. -/
theorem checkSettlesAndEnds : Obligations.CheckSettlesAndEnds := by
  refine ⟨fun s l p due nodup mem free params => ?_, fun s l ready => ⟨fun idle => ?_, fun p params => ?_⟩⟩
  · obtain ⟨u, -, kept, same⟩ := finishBlock_due (engineDue_taskKept params) s l due
      ⟨nodup, free, fun _ => ⟨rfl, rfl⟩, fun none => absurd mem none⟩
    refine ⟨_, exec_blockEnd same, ?_⟩
    exact (kept.taken (List.not_mem_nil)).2
  · have none := checkStepKind_idle idle
    refine ⟨congrArg Host.Outcome.next ?_, congrArg Host.Outcome.next ?_⟩
    · rw [takeUpTo_of_ready ready, if_neg (by rw [none]; decide)]
    · rw [takeUpTo_of_ready ready, if_neg (by rw [none]; decide)]
  · dsimp only
    refine ⟨fun settling calm last => ?_, fun collecting calm last => ?_, fun busy overload alone => ?_⟩
    · have kind := checkStepKind_settling settling params
      rw [if_neg (Bool.eq_false_iff.1 (show (s.results p.chan).overload = false from calm)), if_pos (by omega)] at kind
      refine congrArg Host.Outcome.next ?_
      rw [takeUpTo_of_ready ready, if_pos (decide_eq_true kind)]
      exact (engineStep_settled (s := s.withDue (l.erase .engine)) kind).trans (by rw [← params]; rfl)
    · have kind := checkStepKind_collecting collecting params
      rw [if_neg (Bool.eq_false_iff.1 (show (s.results p.chan).overload = false from calm)), if_pos (by omega)] at kind
      have row : exec .checkResult s = .next (s.withDue (l.erase .engine)).engineStep := by
        refine congrArg Host.Outcome.next ?_
        rw [takeUpTo_of_ready ready, if_pos (decide_eq_true kind)]
        rfl
      rw [engineStep_completes (s := s.withDue (l.erase .engine)) kind params] at row
      obtain ⟨work, check, store, range, unit, offers⟩ := finishCheck_ends (s := s.withDue (l.erase .engine))
        ⟨by rw [show (s.withDue (l.erase .engine)).check.phase = _ from collecting]; decide, params⟩
        ((s.withDue (l.erase .engine)).collected p) (s.check.counter + 1) s.handed.report.ended
        (measure_eq p (s.store.active.chan.get p.chan).k _) (adjustment_eq ..) rfl rfl
      refine ⟨_, row, work, check.trans ?_, store, range, unit, fun room => ?_⟩
      · rw [verdict_eq, last]
        rfl
      · refine (offers.events room).2.trans ?_
        rw [verdict_eq, last]
        rfl
    · obtain ⟨ended, thawed, offers⟩ := engineStep_overloaded (s := s.alone) ⟨busy, params⟩ overload
      exact ⟨_, _, exec_blockEnd (finishBlock_of_one alone), ended, rfl, rfl, rfl, rfl, rfl, thawed,
        fun room => (offers.events room).2⟩

end Sys2Proof.Machine
end

section
/-! PROOFS. The range controller's step of a block end (R12 to R14), alone and among the steps still due. -/

namespace Sys2Proof.Machine

/-! ### The block-end step by its cases -/

section BlockEnd
variable {set : RangeSettings} {codes : GainCodes} {r : RangeCtl}

theorem RangeCtl.blockEnd_of_frozen (frozen : r.frozen = true) : r.blockEnd set codes = { r with holdOff := r.holdOff - 1 } := by
  unfold RangeCtl.blockEnd RangeCtl.countHoldOff
  rw [if_pos frozen]

theorem RangeCtl.windowEnds_iff : r.windowEnds set = true ↔ r.frozen = false ∧ set.window ≤ r.windowCounter + 1 := by
  simp [RangeCtl.windowEnds]

theorem RangeCtl.blockEnd_short (running : r.frozen = false) (short : r.windowCounter + 1 < set.window) :
    r.blockEnd set codes = { r with holdOff := r.holdOff - 1, windowCounter := r.windowCounter + 1 } := by
  have goesOn : ¬r.countHoldOff.windowEnds set = true := by
    rw [RangeCtl.windowEnds_iff]
    exact fun h => absurd h.2 (Nat.not_le.2 short)
  unfold RangeCtl.blockEnd
  dsimp only
  rw [if_neg (by rw [RangeCtl.countHoldOff, running]; decide), if_neg goesOn, RangeCtl.countHoldOff]

theorem RangeCtl.blockEnd_ends (running : r.frozen = false) (last : set.window ≤ r.windowCounter + 1) :
    r.blockEnd set codes = (r.countHoldOff.windowDecision set codes).restartWindow := by
  unfold RangeCtl.blockEnd
  dsimp only
  rw [if_neg (by rw [RangeCtl.countHoldOff, running]; decide),
    if_pos ((RangeCtl.windowEnds_iff (r := r.countHoldOff)).2 ⟨running, last⟩), RangeCtl.endWindow]

/-- A window decision leaves the controller, or makes a gain change (R13). -/
theorem RangeCtl.windowDecision_cases (set : RangeSettings) (codes : GainCodes) (r : RangeCtl) :
    r.windowDecision set codes = r ∨ ∃ g, r.windowDecision set codes = r.step set codes g := by
  unfold RangeCtl.windowDecision
  split_ifs
  exacts [.inl rfl, .inr ⟨_, rfl⟩, .inr ⟨_, rfl⟩, .inl rfl]

/-- What every decision leaves of a controller whose window ends (R13, R14). -/
theorem RangeCtl.blockEnd_restarts (running : r.frozen = false) (last : set.window ≤ r.windowCounter + 1) :
    (r.blockEnd set codes).windowCounter = 0 ∧ (r.blockEnd set codes).windowPeak = 0 ∧
      (r.blockEnd set codes).frozen = false ∧ (r.blockEnd set codes).overload = r.overload ∧
      (r.blockEnd set codes).settlingSamples = r.settlingSamples := by
  rw [RangeCtl.blockEnd_ends running last]
  obtain same | ⟨g, step⟩ := r.countHoldOff.windowDecision_cases set codes
  · rw [same]
    exact ⟨rfl, rfl, running, rfl, rfl⟩
  · rw [step]
    exact ⟨rfl, rfl, running, rfl, rfl⟩

theorem RangeCtl.countHoldOff_expired (free : r.holdOff ≤ 1) : ¬0 < r.countHoldOff.holdOff :=
  Nat.not_lt.2 (Nat.le_zero.2 (Nat.sub_eq_zero_of_le free))

/-- The decision that the hold-off bars (R13). -/
theorem RangeCtl.blockEnd_held (running : r.frozen = false) (last : set.window ≤ r.windowCounter + 1) (held : 1 < r.holdOff) :
    r.blockEnd set codes = { r with holdOff := r.holdOff - 1, windowCounter := 0, windowPeak := 0 } := by
  rw [RangeCtl.blockEnd_ends running last, RangeCtl.windowDecision, if_pos (show 0 < r.countHoldOff.holdOff from Nat.sub_pos_of_lt held)]
  rfl

theorem RangeCtl.blockEnd_down (running : r.frozen = false) (last : set.window ≤ r.windowCounter + 1) (free : r.holdOff ≤ 1)
    (high : set.tHi < r.windowPeak ∧ set.gMin < r.gain) :
    r.blockEnd set codes = (r.countHoldOff.step set codes (r.gain - 1)).restartWindow := by
  rw [RangeCtl.blockEnd_ends running last, RangeCtl.windowDecision, if_neg (RangeCtl.countHoldOff_expired free), if_pos (show set.tHi < r.countHoldOff.windowPeak ∧ set.gMin < r.countHoldOff.gain from high)]
  rfl

theorem RangeCtl.blockEnd_up (running : r.frozen = false) (last : set.window ≤ r.windowCounter + 1) (free : r.holdOff ≤ 1)
    (notHigh : ¬(set.tHi < r.windowPeak ∧ set.gMin < r.gain)) (low : r.windowPeak < set.tLo ∧ r.gain < set.gMax) :
    r.blockEnd set codes = (r.countHoldOff.step set codes (r.gain + 1)).restartWindow := by
  rw [RangeCtl.blockEnd_ends running last, RangeCtl.windowDecision, if_neg (RangeCtl.countHoldOff_expired free),
    if_neg (show ¬(set.tHi < r.countHoldOff.windowPeak ∧ set.gMin < r.countHoldOff.gain) from notHigh),
    if_pos (show r.countHoldOff.windowPeak < set.tLo ∧ r.countHoldOff.gain < set.gMax from low)]
  rfl

theorem RangeCtl.blockEnd_stays (running : r.frozen = false) (last : set.window ≤ r.windowCounter + 1) (free : r.holdOff ≤ 1)
    (notHigh : ¬(set.tHi < r.windowPeak ∧ set.gMin < r.gain)) (notLow : ¬(r.windowPeak < set.tLo ∧ r.gain < set.gMax)) :
    r.blockEnd set codes = { r with holdOff := 0, windowCounter := 0, windowPeak := 0 } := by
  rw [RangeCtl.blockEnd_ends running last, RangeCtl.windowDecision, if_neg (RangeCtl.countHoldOff_expired free),
    if_neg (show ¬(set.tHi < r.countHoldOff.windowPeak ∧ set.gMin < r.countHoldOff.gain) from notHigh),
    if_neg (show ¬(r.countHoldOff.windowPeak < set.tLo ∧ r.countHoldOff.gain < set.gMax) from notLow), RangeCtl.countHoldOff,
    show r.holdOff - 1 = 0 by omega]
  rfl

end BlockEnd

/-! ### The steps that change a range controller -/

/-- A range controller is as it was, but for its freeze. -/
def RangeCtl.ButFreeze (r x : RangeCtl) : Prop := x = { r with frozen := x.frozen }

/-- A step that is neither this controller's own nor its unit's changes at most its freeze, which the engine alone lifts. -/
theorem runTask_butFreeze {t : Task} {s : State} {c : Chan} (notRange : t ≠ .range c) (notWeigh : t ≠ .weigh c)
    (free : t = .boundary → s.store.commitPending = false) :
    (s.range.get c).ButFreeze ((runTask Config.pick t s).range.get c) ∧
      (t ≠ .engine → (runTask Config.pick t s).range.get c = s.range.get c) := by
  have same {u : State} (h : u.range.get c = s.range.get c) :
      (s.range.get c).ButFreeze (u.range.get c) ∧ (t ≠ .engine → u.range.get c = s.range.get c) := by
    rw [RangeCtl.ButFreeze, h]
    exact ⟨rfl, fun _ => rfl⟩
  cases t with
  | range d =>
    have apart : c ≠ d := fun e => notRange (e ▸ rfl)
    exact same (Quad.get_set_other (h := apart) ..)
  | weigh d =>
    have apart : c ≠ d := fun e => notWeigh (e ▸ rfl)
    exact same (Quad.get_set_other (h := apart) ..)
  | engine =>
    refine ⟨?_, fun other => absurd rfl other⟩
    change (s.range.get c).ButFreeze (s.engineStep.range.get c)
    unfold RangeCtl.ButFreeze
    obtain range | ⟨d, range⟩ := engineStep_range s
    · rw [range]
    · rw [range, Quad.get_set]
      split
      next e => rw [e]; rfl
      next => rfl
  | boundary => exact same (congrArg (Quad.get · c) (boundaryStep_sameChannels (free rfl) Config.pick).2.1)
  | _ => exact same (by simp [runTask])

theorem engineStep_idle {s : State} (idle : s.check.phase = .idle) : s.engineStep = s := by
  unfold State.engineStep
  rw [checkStepKind_idle idle]

/-- The unit's step has handed the summary of its controller and cleared it. -/
def SummaryHanded (r x : RangeCtl) (h : BlockResults) : Prop :=
  x = { r with overload := false, settlingSamples := 0, gainChanges := 0, frozen := x.frozen } ∧
    h.overload = r.overload ∧ h.settlingSamples = r.settlingSamples ∧ h.gainChanges = r.gainChanges ∧ h.gain = r.gain

/-- A controller's step among the steps still due, `l` of them at the start: not yet taken; taken, to `r`; and the summary handed. -/
structure RangeDue (s : State) (c : Chan) (l : List Task) (r : RangeCtl) (left : List Task) (u : State) : Prop where
  nodup : left.Nodup
  inside : left ⊆ l
  free : .boundary ∈ left → u.store.commitPending = false
  active : u.active = s.active
  idle : s.check.phase = .idle → u.check.phase = .idle ∧ (u.range.get c).frozen = (s.range.get c).frozen
  waiting : .range c ∈ left → u.range.get c = s.range.get c
  taken : .range c ∉ left → .weigh c ∈ left ∨ .weigh c ∉ l → r.ButFreeze (u.range.get c)
  handed : .weigh c ∈ l → .weigh c ∉ left → .range c ∉ left ∧ SummaryHanded r (u.range.get c) (u.results c)

theorem SummaryHanded.butFreeze {r x y : RangeCtl} {h : BlockResults} (handed : SummaryHanded r x h) (moved : x.ButFreeze y) :
    SummaryHanded r y h := by
  obtain ⟨cleared, results⟩ := handed
  refine ⟨?_, results⟩
  rw [RangeCtl.ButFreeze] at moved
  rw [moved, cleared]

theorem RangeCtl.ButFreeze.trans {r x y : RangeCtl} (first : r.ButFreeze x) (second : x.ButFreeze y) : r.ButFreeze y := by
  unfold RangeCtl.ButFreeze at *
  rw [second, first]

section Due
variable {s : State} {c : Chan} {l : List Task}

theorem rangeDue_taskKept :
    TaskKept (RangeDue s c l ((s.range.get c).blockEnd (s.active.range.get c) (s.active.codes.get c))) := by
  intro u left t due mem first h
  have nodup : (left.erase t).Nodup := h.nodup.erase t
  have inside : left.erase t ⊆ l := fun v hv => h.inside (List.mem_of_mem_erase hv)
  have later (v : Task) (apart : v ≠ t) : v ∈ left.erase t ↔ v ∈ left := List.mem_erase_of_ne apart
  have gone : t ∉ left.erase t := h.nodup.not_mem_erase
  have free (boundary : t = .boundary) : u.store.commitPending = false := h.free (boundary ▸ mem)
  by_cases isRange : t = .range c
  · subst isRange
    have now := h.waiting mem
    have stays : (runTask Config.pick (.range c) { u with blockWork := some (left.erase (.range c)) }).range.get c =
        (s.range.get c).blockEnd (s.active.range.get c) (s.active.codes.get c) := by
      refine (Quad.get_set_same ..).trans ?_
      rw [← h.active, ← now]
      rfl
    refine ⟨nodup, inside, fun boundary => h.free (List.mem_of_mem_erase boundary), h.active, fun idle => ?_,
      fun again => absurd again gone, fun _ _ => ?_, fun weighs none => ?_⟩
    · rw [stays, RangeCtl.blockEnd_frozen]
      exact ⟨(h.idle idle).1, rfl⟩
    · rw [stays]
      rfl
    · exact absurd mem (h.handed weighs fun w => none ((later _ (by simp)).2 w)).1
  · by_cases isWeigh : t = .weigh c
    · subst isWeigh
      have done : .range c ∉ left := fun waits => Bool.noConfusion ((first _ waits).symm.trans rfl)
      have now := h.taken done (.inl mem)
      have stays : (runTask Config.pick (.weigh c) { u with blockWork := some (left.erase (.weigh c)) }).range.get c =
          (u.range.get c).clearSummary := Quad.get_set_same ..
      refine ⟨nodup, inside, fun boundary => h.free (List.mem_of_mem_erase boundary), h.active, fun idle => ?_,
        fun waits => absurd (List.mem_of_mem_erase waits) done, fun _ weighs => ?_,
        fun _ _ => ⟨fun waits => done (List.mem_of_mem_erase waits), ?_⟩⟩
      · rw [stays]
        exact h.idle idle
      · obtain again | never := weighs
        · exact absurd again gone
        · exact absurd (h.inside mem) never
      · rw [stays]
        have results : (runTask Config.pick (.weigh c) { u with blockWork := some (left.erase (.weigh c)) }).results c =
            blockResultsOf (u.unit.get c).update (u.range.get c) := Quad.get_set_same ..
        rw [results]
        rw [RangeCtl.ButFreeze] at now
        refine ⟨?_, ?_⟩
        · rw [now]; rfl
        · rw [now]; exact ⟨rfl, rfl, rfl, rfl⟩
    · obtain ⟨moved, same⟩ := runTask_butFreeze (s := { u with blockWork := some (left.erase t) }) isRange isWeigh free
      have results : (runTask Config.pick t { u with blockWork := some (left.erase t) }).results c = u.results c :=
        runTask_results isWeigh
      have store : (runTask Config.pick t { u with blockWork := some (left.erase t) }).active = u.active ∧
          (.boundary ∈ left.erase t →
            (runTask Config.pick t { u with blockWork := some (left.erase t) }).store.commitPending = false) := by
        by_cases engine : t = .engine
        · subst engine
          refine ⟨engineStep_active { u with blockWork := some (left.erase .engine) }, fun boundary => ?_⟩
          have pending := h.free (List.mem_of_mem_erase boundary)
          obtain store | ⟨d, k, -, -, -, store⟩ := engineStep_store { u with blockWork := some (left.erase .engine) }
          · exact (congrArg Store.commitPending store).trans pending
          · exact (congrArg Store.commitPending store).trans pending
        · obtain ⟨-, store⟩ := runTask_sameCheck (s := { u with blockWork := some (left.erase t) }) engine free
          rw [State.active_eq, State.active_eq, store]
          exact ⟨rfl, fun boundary => h.free (List.mem_of_mem_erase boundary)⟩
      refine ⟨nodup, inside, store.2, store.1.trans h.active, fun idle => ?_, fun waits => ?_, fun done weighs => ?_,
        fun weighs none => ?_⟩
      · obtain ⟨phase, frozen⟩ := h.idle idle
        by_cases engine : t = .engine
        · subst engine
          have nothing := engineStep_idle (s := { u with blockWork := some (left.erase .engine) }) phase
          refine ⟨(congrArg (fun x => x.check.phase) nothing).trans phase, ?_⟩
          exact (congrArg (fun x => (x.range.get c).frozen) nothing).trans frozen
        · rw [same engine, (runTask_sameCheck (s := { u with blockWork := some (left.erase t) }) engine free).1]
          exact ⟨phase, frozen⟩
      · have waits := List.mem_of_mem_erase waits
        have notEngine : t ≠ .engine := fun engine => by
          rw [engine] at first
          exact Bool.noConfusion ((first _ waits).symm.trans rfl)
        rw [same notEngine]
        exact h.waiting waits
      · rw [later _ (Ne.symm isRange)] at done
        rw [later _ (Ne.symm isWeigh)] at weighs
        exact (h.taken done weighs).trans moved
      · rw [later _ (Ne.symm isRange), results]
        rw [later _ (Ne.symm isWeigh)] at none
        exact (h.handed weighs none).imp_right fun handed => handed.butFreeze moved

end Due

/-- Settles O22: the controller's step by its cases, in its own row and among the steps of the block end. -/
theorem windowEndDecides : Obligations.WindowEndDecides := by
  intro c s l due mem r set codes
  have ready : Ready s (.range c) l := ⟨due, mem, fun u _ => Bool.eq_false_iff.2 fun h =>
    absurd ((Task.before_iff _ _).1 h).2.2.1 (Nat.not_lt_zero _)⟩
  have row := takeUpTo_of_ready ready fun s => (s.range.get c).windowEnds (s.active.range.get c)
  have stays (goesOn : ¬r.windowEnds set = true) : exec (.windowEnd c) s = .next s :=
    congrArg Host.Outcome.next (row.trans (if_neg goesOn))
  refine ⟨r.blockEnd set codes, fun frozen => ⟨RangeCtl.blockEnd_of_frozen frozen, stays ?_⟩,
    fun running short => ⟨RangeCtl.blockEnd_short running short, stays ?_⟩, fun running last => ⟨?_, ?_⟩,
    fun nodup free => ?_⟩
  · rw [RangeCtl.windowEnds_iff, frozen]
    exact fun h => Bool.noConfusion h.1
  · rw [RangeCtl.windowEnds_iff]
    omega
  · exact congrArg Host.Outcome.next (row.trans (if_pos (RangeCtl.windowEnds_iff.2 ⟨running, last⟩)))
  · obtain ⟨counter, peak, thawed, overload, settling⟩ := RangeCtl.blockEnd_restarts (codes := codes) running last
    refine ⟨counter, peak, thawed, overload, settling, RangeCtl.blockEnd_held running last, fun free high low => ?_,
      fun free notHigh low high => ?_, RangeCtl.blockEnd_stays running last⟩
    · rw [RangeCtl.blockEnd_down running last free ⟨high, low⟩]
      exact ⟨rfl, rfl, rfl, rfl, rfl⟩
    · rw [RangeCtl.blockEnd_up running last free notHigh ⟨low, high⟩]
      exact ⟨rfl, rfl, rfl, rfl, rfl⟩
  · obtain ⟨u, -, kept, same⟩ := finishBlock_due (rangeDue_taskKept (s := s) (c := c) (l := l)) s l due
      ⟨nodup, fun _ h => h, free, rfl, fun idle => ⟨idle, rfl⟩, fun _ => rfl, fun gone => absurd mem gone,
        fun weighs gone => absurd weighs gone⟩
    refine ⟨_, exec_blockEnd same, fun none => kept.taken List.not_mem_nil (.inr none), fun weighs => ?_,
      fun idle => (kept.idle idle).2⟩
    exact (kept.handed weighs List.not_mem_nil).2

end Sys2Proof.Machine
end

section
/-! PROOFS. The close of an episode (R110, R134, R135, R146), and the closes of several channels one after another. -/

namespace Sys2Proof.Machine

/-! ### Notices offered to a busy transmitter, as the masks let them pass (R162, R163) -/

/-- From `s` to `t` exactly the notices `ns` were offered: a queue with room for all of them, behind a busy transmitter, has
those that pass the masks as its newest. -/
def Offered (s t : State) (ns : List Notice) : Prop :=
  s.report.sending.isSome = true → s.report.events.length + ns.length ≤ 32 →
    t.fifo = s.fifo ∧
      t.report = { s.report with events := s.report.events ++ ns.filter fun n => s.report.passes n.chan n.body }

namespace Offered

variable {s t u : State} {ns ms : List Notice}

theorem none (report : t.report = s.report) (fifo : t.fifo = s.fifo) : Offered s t [] := fun _ _ =>
  ⟨fifo, by rw [report, List.filter_nil, List.append_nil]⟩

theorem one (s : State) (c : Option Chan) (stamp : Stamp) (body : EventBody) :
    Offered s (s.offer c stamp body) [⟨c, stamp, body⟩] := fun busy room => by
  cases passes : s.report.passes c body with
  | true =>
    obtain ⟨m, sending⟩ := Option.isSome_iff_exists.1 busy
    have enter : s.report.enqueue ⟨c, stamp, body⟩ = { s.report with events := s.report.events ++ [⟨c, stamp, body⟩] } :=
      if_pos room
    rw [offer_sending s c stamp body m passes sending, enter, List.filter_singleton]
    dsimp only
    rw [passes]
    exact ⟨rfl, rfl⟩
  | false =>
    have same : s.offer c stamp body = s := if_neg (by rw [passes]; exact Bool.noConfusion)
    rw [same, List.filter_singleton]
    dsimp only
    rw [passes]
    exact ⟨rfl, by rw [show (bif false then [(⟨c, stamp, body⟩ : Notice)] else []) = [] from rfl, List.append_nil]⟩

theorem trans (h : Offered s t ns) (h' : Offered t u ms) : Offered s u (ns ++ ms) := by
  intro busy room
  rw [List.length_append] at room
  obtain ⟨fifo, report⟩ := h busy (by omega)
  have kept := List.length_filter_le (fun n : Notice => s.report.passes n.chan n.body) ns
  obtain ⟨fifo', report'⟩ := h' (by rw [report]; exact busy) (by rw [report, List.length_append]; omega)
  refine ⟨fifo'.trans fifo, ?_⟩
  rw [report', report, List.filter_append, ← List.append_assoc]
  rfl

theorem after (h : Offered s t ns) (report : u.report = t.report) (fifo : u.fifo = t.fifo) : Offered s u ns :=
  fun busy room => by
    rw [report, fifo]
    exact h busy room

theorem before (h : Offered t u ns) (report : t.report = s.report) (fifo : t.fifo = s.fifo) : Offered s u ns := by
  have := (Offered.none report fifo).trans h
  rwa [List.nil_append] at this

/-- With the masks open every notice passes. -/
theorem open_ (h : Offered s t ns) : Offers s t ns := fun n room => by
  obtain ⟨fifo, report⟩ := h room.1 (le_trans (by omega) room.2.1)
  refine ⟨fifo, ?_⟩
  rw [report, List.filter_eq_self.2 fun n _ => room.passes n.chan n.body]

end Offered

/-! ### The recording of another channel -/

/-- A region that records another channel before and after leaves a channel's recording. -/
theorem recording_set_other {k : Capture} {i : Fin 16} {r : Role} {c : Chan}
    (was : Role.isRecordingOf c k.regions[i] = false) (becomes : Role.isRecordingOf c r = false) :
    ({ k with regions := k.regions.set i r } : Capture).recording c = k.recording c := by
  have role (j : Fin 16) (other : j ≠ i) : (k.regions.set i r)[j] = k.regions[j] :=
    Vector.getElem_set_ne (Nat.lt_of_lt_of_le i.isLt le_rfl) _ fun e => other (Fin.ext e.symm)
  have here : (k.regions.set i r)[i] = r := Vector.getElem_set_self ..
  have found : ({ k with regions := k.regions.set i r } : Capture).find (Role.isRecordingOf c) =
      k.find (Role.isRecordingOf c) := by
    unfold Capture.find
    refine List.find?_congr fun j _ => ?_
    dsimp only
    by_cases same : j = i
    · rw [same, here, was, becomes]
    · rw [role j same]
  unfold Capture.recording
  rw [found]
  cases look : k.find (Role.isRecordingOf c) with
  | none => rfl
  | some j =>
    have other : j ≠ i := fun same => by
      have yes := Capture.find_some look
      rw [same, was] at yes
      cases yes
    dsimp only
    rw [role j other]

/-! ### A close and its capture (R134, R135, R146) -/

/-- The descriptor with which a close outside the block end makes a recording STORED, if it does. -/
def storedAtClose (tailLength : Nat) (reason : CloseReason) (d : Descriptor) : Option Descriptor :=
  if reason = .reset then some { d with truncated := true } else storedAtOnce tailLength d

/-- The role of a recording's region behind a close outside the block end. -/
def roleAtClose (tailLength : Nat) (reason : CloseReason) (d : Descriptor) : Role :=
  match storedAtClose tailLength reason d with
  | some d' => .stored d'
  | none => .recording d (some tailLength)

theorem roleAtClose_other (tailLength : Nat) {reason : CloseReason} {d : Descriptor} {c : Chan} (other : d.chan ≠ c) :
    Role.isRecordingOf c (roleAtClose tailLength reason d) = false := by
  unfold roleAtClose
  split
  · rfl
  · exact decide_eq_false other

/-- The close is not one that finds its channel's capture step still due. -/
def Punctual (s : State) (reason : CloseReason) : Prop := ∀ c, ¬(reason.atBlockEnd = true ∧ s.captureStepDue c = true)

section Close
variable {s : State} {c : Chan} {reason : CloseReason} {stamp : Stamp}

/-- The notices of the end of a recording by a close. -/
def endNotices (tailLength : Nat) (c : Chan) (i : Fin 16) (d : Descriptor) (reason : CloseReason) (stamp : Stamp) : List Notice :=
  (storedAtClose tailLength reason d).toList.map fun d' => ⟨some c, stamp, .captureStored i d'⟩

theorem closeCapture_other {id : Option Nat} (h : ∀ i d, s.capture.recording c = some (i, d, none) → id ≠ some d.id) :
    s.closeCapture c id reason stamp = s := by
  unfold State.closeCapture
  split
  next i d found => exact if_pos (h i d found)
  next => rfl

theorem closeCapture_recorded {i : Fin 16} {d : Descriptor} (punctual : Punctual s reason)
    (found : s.capture.recording c = some (i, d, none)) :
    (s.closeCapture c (some d.id) reason stamp).capture =
        { s.capture with regions := s.capture.regions.set i (roleAtClose s.capture.tailLength reason d) } ∧
      Offered s (s.closeCapture c (some d.id) reason stamp) (endNotices s.capture.tailLength c i d reason stamp) := by
  have chan : d.chan = c := (Capture.recording_some found).2
  have stores (d' : Descriptor) (same : d'.chan = c) :
      (s.storeCapture i d' stamp).capture = { s.capture with regions := s.capture.regions.set i (.stored d') } ∧
        Offered s (s.storeCapture i d' stamp) [⟨some c, stamp, .captureStored i d'⟩] := by
    refine ⟨(storeCapture_ends s i d' stamp).1, ?_⟩
    unfold State.storeCapture
    rw [same]
    exact (Offered.one _ _ _ _).before rfl rfl
  unfold State.closeCapture roleAtClose endNotices storedAtClose storedAtOnce
  rw [found]
  dsimp only
  rw [if_neg (not_not_intro rfl)]
  by_cases reset : reason = .reset
  · rw [if_pos reset, if_pos reset]
    exact stores _ chan
  · rw [if_neg reset, if_neg reset, if_neg (punctual c)]
    by_cases short : s.capture.tailLength = 0
    · rw [if_pos short, if_pos short]
      exact stores _ chan
    · rw [if_neg short, if_neg short]
      exact ⟨rfl, Offered.none rfl rfl⟩

theorem closeEpisode_idle (idle : (s.monitor.get c).episode = none) : s.closeEpisode c reason stamp = s := by
  unfold State.closeEpisode
  rw [idle]

/-- What a close makes of the monitor (R110). -/
theorem closeEpisode_monitor :
    (s.closeEpisode c reason stamp).monitor = s.monitor.set c (s.monitor.get c).closed := by
  unfold State.closeEpisode MonitorChan.closed
  cases (s.monitor.get c).episode with
  | none => exact (Quad.set_get ..).symm
  | some e =>
    dsimp only
    rw [State.setMonitor_monitor, closeCapture_monitor, offer_monitor]
    rfl

end Close

/-! ### The closes of several channels -/

/-- The notices of a channel's close as it stands in `s`. -/
def State.closeNotices (s : State) (reason : CloseReason) (stamp : Stamp) (c : Chan) : List Notice :=
  closingNotices s c (s.k c) stamp reason (storedAtClose s.capture.tailLength reason)

theorem closeNotices_idle {s : State} {c : Chan} (reason : CloseReason) (stamp : Stamp) (idle : (s.monitor.get c).episode = none) :
    s.closeNotices reason stamp c = [] := by
  unfold State.closeNotices closingNotices
  rw [idle]

section Single
variable {t : State} {c : Chan} {reason : CloseReason} {stamp : Stamp}

/-- The close of an open episode: EPISODE_CLOSED is offered, and the capture controller is told (R110). -/
theorem closeEpisode_open {e : Episode} (opened : (t.monitor.get c).episode = some e) :
    ∃ u, (t.closeEpisode c reason stamp) = (u.closeCapture c e.captureId reason stamp).setMonitor c
        ((u.closeCapture c e.captureId reason stamp).monitor.get c).toIdle ∧
      u.capture = t.capture ∧ u.blockWork = t.blockWork ∧
      Offered t u [⟨some c, stamp, .episodeClosed (e.complete c (t.k c) stamp reason)⟩] := by
  refine ⟨t.offer (some c) stamp (.episodeClosed (e.complete c (t.k c) stamp reason)), ?_, offer_capture .., offer_blockWork ..,
    Offered.one _ _ _ _⟩
  unfold State.closeEpisode
  rw [opened]

/-- The close of an episode that a recording records. -/
theorem closeEpisode_recorded {e : Episode} {i : Fin 16} {d : Descriptor} (punctual : Punctual t reason)
    (recorded : RecordedBy t c e i d) :
    (t.closeEpisode c reason stamp).capture =
        { t.capture with regions := t.capture.regions.set i (roleAtClose t.capture.tailLength reason d) } ∧
      Offered t (t.closeEpisode c reason stamp) (t.closeNotices reason stamp c) := by
  obtain ⟨opened, found, id⟩ := recorded
  obtain ⟨u, whole, capture, work, said⟩ := closeEpisode_open (reason := reason) (stamp := stamp) opened
  have punctual : Punctual u reason := fun x late => punctual x (by
    unfold State.captureStepDue at late ⊢
    rw [← work]
    exact late)
  obtain ⟨regions, ended⟩ := closeCapture_recorded (stamp := stamp) punctual (by rw [capture]; exact found)
  rw [capture] at regions ended
  rw [whole, id]
  refine ⟨regions, ?_⟩
  have notices : t.closeNotices reason stamp c = ⟨some c, stamp, .episodeClosed (e.complete c (t.k c) stamp reason)⟩ ::
      endNotices t.capture.tailLength c i d reason stamp := by
    unfold State.closeNotices closingNotices endNotices
    rw [opened, found]
    dsimp only
    rw [if_pos id]
    rfl
  rw [notices]
  exact (said.trans ended).after rfl rfl

/-- The close of an episode that nothing records, or of none. -/
theorem closeEpisode_unrecorded (unrecorded : ∀ e i d, ¬RecordedBy t c e i d) :
    (t.closeEpisode c reason stamp).capture = t.capture ∧
      Offered t (t.closeEpisode c reason stamp) (t.closeNotices reason stamp c) := by
  cases opened : (t.monitor.get c).episode with
  | none =>
    rw [closeEpisode_idle opened, closeNotices_idle _ _ opened]
    exact ⟨rfl, Offered.none rfl rfl⟩
  | some e =>
    obtain ⟨u, whole, capture, work, said⟩ := closeEpisode_open (reason := reason) (stamp := stamp) opened
    have stays : u.closeCapture c e.captureId reason stamp = u :=
      closeCapture_other fun i d found id => unrecorded e i d ⟨opened, by rw [← capture]; exact found, id⟩
    have notices : t.closeNotices reason stamp c = [⟨some c, stamp, .episodeClosed (e.complete c (t.k c) stamp reason)⟩] := by
      unfold State.closeNotices closingNotices
      rw [opened]
      dsimp only
      split
      next i d found =>
        rw [if_neg fun id => unrecorded e i d ⟨opened, found, id⟩]
        rfl
      next => rfl
    rw [whole, stays, notices]
    exact ⟨capture, said.after rfl rfl⟩

end Single

/-- From `s` to `t` the episodes of the channels `cs` closed, and these notices were offered. -/
structure ClosedOn (s : State) (reason : CloseReason) (stamp : Stamp) (t : State) (cs : List Chan) (ns : List Notice) : Prop where
  store : t.store = s.store
  work : t.blockWork = s.blockWork
  capture : t.capture = { s.capture with regions := t.capture.regions }
  monitor : ∀ c, t.monitor.get c = if c ∈ cs then (s.monitor.get c).closed else s.monitor.get c
  taken : ∀ c ∈ cs, ∀ e i d, RecordedBy s c e i d → t.capture.regions[i] = roleAtClose s.capture.tailLength reason d
  others : ∀ i : Fin 16, (∀ c ∈ cs, ∀ e d, ¬RecordedBy s c e i d) → t.capture.regions[i] = s.capture.regions[i]
  recording : ∀ c, (c ∈ cs → ∀ e i d, ¬RecordedBy s c e i d) → t.capture.recording c = s.capture.recording c
  offered : Offered s t ns

namespace ClosedOn

variable {s t u : State} {reason : CloseReason} {stamp : Stamp} {cs : List Chan} {ns ms : List Notice} {c : Chan}

theorem start (s : State) (reason : CloseReason) (stamp : Stamp) : ClosedOn s reason stamp s [] [] :=
  ⟨rfl, rfl, rfl, fun _ => rfl, fun _ h => (nomatch h), fun _ _ => rfl, fun _ _ => rfl, Offered.none rfl rfl⟩

/-- Steps that leave store, monitor and capture controller do not count. -/
theorem after (h : ClosedOn s reason stamp t cs ns) (store : u.store = t.store) (work : u.blockWork = t.blockWork)
    (capture : u.capture = t.capture) (monitor : u.monitor = t.monitor) (offered : Offered t u ms) :
    ClosedOn s reason stamp u cs (ns ++ ms) :=
  ⟨store.trans h.store, work.trans h.work, by rw [capture]; exact h.capture, by rw [monitor]; exact h.monitor,
    by rw [capture]; exact h.taken, by rw [capture]; exact h.others, by rw [capture]; exact h.recording,
    h.offered.trans offered⟩

/-- One recording's region records one channel. -/
theorem recordedBy_unique {c' : Chan} {e e' : Episode} {i : Fin 16} {d d' : Descriptor} (h : RecordedBy s c e i d)
    (h' : RecordedBy s c' e' i d') : c = c' := by
  obtain ⟨-, found, -⟩ := h
  obtain ⟨-, found', -⟩ := h'
  obtain ⟨role, chan⟩ := Capture.recording_some found
  obtain ⟨role', chan'⟩ := Capture.recording_some found'
  cases role.symm.trans role'
  exact chan.symm.trans chan'

/-- A further channel's episode closes. -/
theorem close (h : ClosedOn s reason stamp t cs ns) (fresh : c ∉ cs) (punctual : Punctual s reason) :
    ClosedOn s reason stamp (t.closeEpisode c reason stamp) (cs ++ [c]) (ns ++ s.closeNotices reason stamp c) := by
  have now : t.monitor.get c = s.monitor.get c := (h.monitor c).trans (if_neg fresh)
  have found := h.recording c fun mem => absurd mem fresh
  have tail : t.capture.tailLength = s.capture.tailLength := by rw [h.capture]
  have member (x : Chan) : x ∈ cs ++ [c] ↔ x ∈ cs ∨ x = c := by rw [List.mem_append, List.mem_singleton]
  have records (e : Episode) (i : Fin 16) (d : Descriptor) : RecordedBy t c e i d ↔ RecordedBy s c e i d := by
    unfold RecordedBy
    rw [now, found]
  have notices : t.closeNotices reason stamp c = s.closeNotices reason stamp c := by
    unfold State.closeNotices closingNotices State.k
    rw [now, found, tail, State.active_eq, State.active_eq, h.store]
  have punctual : Punctual t reason := fun x late => punctual x (by
    unfold State.captureStepDue at late ⊢
    rw [← h.work]
    exact late)
  have store : (t.closeEpisode c reason stamp).store = s.store := (closeEpisode_store ..).trans h.store
  have work : (t.closeEpisode c reason stamp).blockWork = s.blockWork := (closeEpisode_blockWork ..).trans h.work
  have monitor (x : Chan) : (t.closeEpisode c reason stamp).monitor.get x =
      if x ∈ cs ++ [c] then (s.monitor.get x).closed else s.monitor.get x := by
    rw [closeEpisode_monitor, Quad.get_set, h.monitor x, now]
    by_cases same : x = c
    · rw [if_pos same, if_pos ((member x).2 (.inr same)), same]
    · rw [if_neg same]
      simp only [member, same, or_false]
  by_cases recorded : ∃ e i d, RecordedBy t c e i d
  · obtain ⟨e, i, d, r⟩ := recorded
    have r' := (records e i d).1 r
    obtain ⟨was, chan⟩ := Capture.recording_some r.2.1
    obtain ⟨capture, offered⟩ := closeEpisode_recorded (stamp := stamp) punctual r
    rw [tail] at capture
    have role (j : Fin 16) : (t.closeEpisode c reason stamp).capture.regions[j] =
        if j = i then roleAtClose s.capture.tailLength reason d else t.capture.regions[j] := by
      rw [capture]
      dsimp only
      by_cases same : j = i
      · rw [if_pos same, same]
        exact Vector.getElem_set_self ..
      · rw [if_neg same]
        exact Vector.getElem_set_ne (Nat.lt_of_lt_of_le i.isLt le_rfl) _ fun e => same (Fin.ext e.symm)
    refine ⟨store, work, ?_, monitor, fun x mem e' j d' rx => ?_, fun j none => ?_, fun x none => ?_,
      notices ▸ h.offered.trans offered⟩
    · rw [capture, h.capture]
    · rw [role]
      obtain old | same := (member x).1 mem
      · have apart : j ≠ i := fun same => by
          subst same
          exact fresh (recordedBy_unique rx r' ▸ old)
        rw [if_neg apart]
        exact h.taken x old e' j d' rx
      · subst same
        cases r'.2.1.symm.trans rx.2.1
        rw [if_pos rfl]
    · have apart : j ≠ i := fun same => none c ((member c).2 (.inr rfl)) e d (same ▸ r')
      rw [role, if_neg apart]
      exact h.others j fun x old => none x ((member x).2 (.inl old))
    · have other : d.chan ≠ x := fun same => none ((member x).2 (.inr (same.symm.trans chan))) e i d
        (same.symm.trans chan ▸ r')
      rw [capture]
      refine (recording_set_other ?_ (roleAtClose_other _ other)).trans
        (h.recording x fun old => none ((member x).2 (.inl old)))
      rw [was]
      exact decide_eq_false other
  · have unrecorded (e : Episode) (i : Fin 16) (d : Descriptor) : ¬RecordedBy t c e i d := fun r => recorded ⟨e, i, d, r⟩
    obtain ⟨capture, offered⟩ := closeEpisode_unrecorded (reason := reason) (stamp := stamp) unrecorded
    refine ⟨store, work, by rw [capture]; exact h.capture, monitor, fun x mem e' j d' rx => ?_, fun j none => ?_,
      fun x none => ?_, notices ▸ h.offered.trans offered⟩
    · obtain old | same := (member x).1 mem
      · rw [capture]
        exact h.taken x old e' j d' rx
      · subst same
        exact absurd ((records e' j d').2 rx) (unrecorded e' j d')
    · rw [capture]
      exact h.others j fun x old => none x ((member x).2 (.inl old))
    · rw [capture]
      exact h.recording x fun old => none ((member x).2 (.inl old))

/-- The episodes of a list of further channels close. -/
theorem closeList (punctual : Punctual s reason) : ∀ (l done : List Chan) (t : State) (ns : List Notice), (done ++ l).Nodup →
    ClosedOn s reason stamp t done ns →
    ClosedOn s reason stamp (l.foldl (fun u c => u.closeEpisode c reason stamp) t) (done ++ l)
      (ns ++ l.flatMap (s.closeNotices reason stamp))
  | [], done, t, ns, _, h => by simpa using h
  | c :: l, done, t, ns, nodup, h => by
    have fresh : c ∉ done := fun mem =>
      (List.nodup_append.1 nodup).2.2 c mem c List.mem_cons_self rfl
    have next := closeList punctual l (done ++ [c]) _ _ (by simpa using nodup) (h.close fresh punctual)
    simpa using next

/-- With the closes of no reset the recordings began their tails, or are STORED where the tail length is 0. -/
theorem tailsBegun (h : ClosedOn s reason stamp t cs ns) (notReset : reason ≠ .reset) {which : Chan → Prop}
    (all : ∀ c, which c ∧ (s.monitor.get c).episode.isSome = true ↔ c ∈ cs ∧ (s.monitor.get c).episode.isSome = true) :
    TailsBegun s which t.capture.regions := by
  have opened {x : Chan} {e : Episode} {i : Fin 16} {d : Descriptor} (r : RecordedBy s x e i d) :
      (s.monitor.get x).episode.isSome = true := by rw [r.1]; rfl
  intro i
  refine ⟨fun x e d hx r => ?_, fun none => h.others i fun x mem e d r => none x e d ((all x).2 ⟨mem, opened r⟩).1 r⟩
  rw [h.taken x ((all x).1 ⟨hx, opened r⟩).1 e i d r]
  unfold roleAtClose storedAtClose storedAtOnce
  rw [if_neg notReset]
  split
  next d' stored =>
    split_ifs at stored with short
    cases stored
    rw [if_pos short]
  next goesOn =>
    split_ifs at goesOn with short
    rw [if_neg short]

end ClosedOn

end Sys2Proof.Machine
end

section
/-! PROOFS. START_CHECK and ABORT_CHECK (R15, R113, R148, R149, R154, R156), and the stall of the input (R4, R5, R114, R155). -/

namespace Sys2Proof.Machine

/-! ### Reading START_CHECK (R148) -/

/-- What START_CHECK demands of its fields (R148). -/
def CheckParams.Startable (p : CheckParams) : Prop :=
  1 ≤ p.tolerance ∧ p.tolerance ≤ 500 ∧ 1000 ≤ p.measureTime ∧ p.measureTime ≤ 30000 ∧
    (p.source = .calibrator → 0 ≤ p.expected ∧ p.expected ≤ 20000) ∧
    (p.source = .internal → 1 ≤ p.amplitude ∧ p.amplitude ≤ 8000000 ∧ p.gain ≤ 4 ∧ 256 ≤ p.amplitude * 4 ^ (4 - p.gain))

theorem startCheckOf_eq (b : List Byte) :
    startCheckOf b =
      match chanOf (field8 b 0), checkSourceOf (field8 b 1), flagOf (field8 b 8) with
      | some c, some source, some adjust =>
        let p : CheckParams :=
          { chan := c, source, expected := signed16 b 2, tolerance := field16 b 4, measureTime := field16 b 6, adjust
            amplitude := field32 b 9, gain := field8 b 13 }
        accept (decide (1 ≤ p.tolerance) && decide (p.tolerance ≤ 500) && decide (1000 ≤ p.measureTime)
            && decide (p.measureTime ≤ 30000)
            && (match source with
              | .calibrator => decide (0 ≤ p.expected) && decide (p.expected ≤ 20000)
              | .internal => decide (1 ≤ p.amplitude) && decide (p.amplitude ≤ 8000000) && decide (p.gain ≤ 4)
                  && decide (256 ≤ p.amplitude * 4 ^ (4 - p.gain)))) p
      | _, _, _ => none := rfl

/-- What is accepted are startable parameters, read from their fields. -/
theorem startCheckOf_some {b : List Byte} {p : CheckParams} (h : startCheckOf b = some p) :
    p.Startable ∧ chanOf (field8 b 0) = some p.chan ∧ checkSourceOf (field8 b 1) = some p.source ∧
      flagOf (field8 b 8) = some p.adjust ∧ p.expected = signed16 b 2 ∧ p.tolerance = field16 b 4 ∧
      p.measureTime = field16 b 6 ∧ p.amplitude = field32 b 9 ∧ p.gain = field8 b 13 := by
  rw [startCheckOf_eq] at h
  split at h
  next c source adjust chan src adj =>
    obtain ⟨ok, rfl⟩ := accept_eq_some h
    refine ⟨?_, chan, src, adj, rfl, rfl, rfl, rfl, rfl⟩
    unfold CheckParams.Startable
    cases source <;>
      simp only [Bool.and_eq_true, decide_eq_true_eq] at ok <;>
      simp only [reduceCtorEq, false_implies, true_implies, and_true, true_and] <;>
      tauto
  next => cases h

/-- Startable parameters read back from their body (R148, R183). -/
theorem startCheckOf_body {p : CheckParams} (startable : p.Startable) (expected : -32768 ≤ p.expected ∧ p.expected ≤ 32767)
    (amplitude : p.amplitude < 2 ^ 32) (gain : p.gain < 256) : startCheckOf (startCheckBody p) = some p := by
  obtain ⟨low, high, short, long, calibrator, internal⟩ := startable
  have source : p.source.code < 256 := by cases p.source <;> decide
  rw [startCheckOf_eq, field8_of (n := p.chan.number) rfl (number_lt _), field8_of (n := p.source.code) rfl source,
    field8_of (n := p.adjust.toNat) rfl (by cases p.adjust <;> decide), chanOf_number, checkSourceOf_code, flagOf_toNat]
  dsimp only
  rw [signed16_of (x := p.expected) rfl rfl expected, field16_of (n := p.tolerance) rfl rfl (by omega),
    field16_of (n := p.measureTime) rfl rfl (by omega), field32_of (n := p.amplitude) rfl rfl rfl rfl amplitude,
    field8_of (n := p.gain) rfl gain]
  refine accept_true ?_ _
  rw [decide_eq_true low, decide_eq_true high, decide_eq_true short, decide_eq_true long]
  cases src : p.source with
  | calibrator =>
    obtain ⟨nonneg, top⟩ := calibrator src
    simp [nonneg, top]
  | internal =>
    obtain ⟨some_, top, step, loud⟩ := internal src
    simp [some_, top, step, loud]

theorem checkSourceOf_range {n : Nat} {x : CheckSource} (h : checkSourceOf n = some x) :
    n = 0 ∧ x = .calibrator ∨ n = 1 ∧ x = .internal := by
  unfold checkSourceOf at h
  split at h
  · cases h; exact .inl ⟨rfl, rfl⟩
  · cases h; exact .inr ⟨rfl, rfl⟩
  · cases h

/-- A body with a field against R148 is not accepted. -/
theorem startCheckOf_none {b : List Byte}
    (bad : field8 b 0 = 0 ∨ 4 < field8 b 0 ∨ 1 < field8 b 1 ∨ 1 < field8 b 8 ∨ field16 b 4 = 0 ∨ 500 < field16 b 4 ∨
      field16 b 6 < 1000 ∨ 30000 < field16 b 6 ∨ (field8 b 1 = 0 ∧ 20000 < field16 b 2) ∨
      (field8 b 1 = 1 ∧ (4 < field8 b 13 ∨ field32 b 9 = 0 ∨ 8000000 < field32 b 9 ∨
        field32 b 9 * 4 ^ (4 - field8 b 13) < 256))) : startCheckOf b = none := by
  cases read : startCheckOf b with
  | none => rfl
  | some p =>
    exfalso
    obtain ⟨startable, chan, source, adjust, expected, tolerance, time, amplitude, gain⟩ := startCheckOf_some read
    obtain ⟨low, high, short, long, calibrator, internal⟩ := startable
    have chan := chanOf_range chan
    have adjust := flagOf_range adjust
    have word : field16 b 2 < 65536 := by
      unfold field16 field8
      have low := (b.getD 2 0).isLt
      have high := (b.getD (2 + 1) 0).isLt
      omega
    have signed : p.expected = if 2 * field16 b 2 < 65536 then (field16 b 2 : Int) else field16 b 2 - 65536 := by
      rw [expected, signed16, BitVec.toInt_eq_toNat_cond, BitVec.toNat_ofNat, Nat.mod_eq_of_lt word]
      norm_num
    rw [tolerance] at low high
    rw [time] at short long
    obtain ⟨code, src⟩ | ⟨code, src⟩ := checkSourceOf_range source
    · obtain ⟨nonneg, top⟩ := calibrator src
      rw [signed] at nonneg top
      split at nonneg <;> omega
    · obtain ⟨some_, top, step, loud⟩ := internal src
      rw [amplitude] at some_ top loud
      rw [gain] at step loud
      omega

/-! ### START_CHECK and ABORT_CHECK -/

theorem punctual_of_reason {s : State} {reason : CloseReason} (early : reason.atBlockEnd = false) : Punctual s reason :=
  fun _ late => Bool.noConfusion (early.symm.trans late.1)

/-- The state in which a check has its parameters and the block in progress its mark (R149). -/
def State.checkBegun (s : State) (p : CheckParams) : State :=
  { s with
    check := ⟨.settling, some p, 0, 0, s.check.last⟩
    acc := { s.acc with checkInBlock := s.acc.checkInBlock.set p.chan true } }

theorem beginCheck_eq (s : State) (p : CheckParams) :
    s.beginCheck p = ((s.checkBegun p).closeEpisode p.chan .check s.clock.now).setRange p.chan (s.range.get p.chan).freeze := by
  unfold State.beginCheck State.checkBegun
  dsimp only
  rw [closeEpisode_range]

theorem beginCheck_begins (s : State) (p : CheckParams) :
    s.beginCheck p =
      { s with
        check := ⟨.settling, some p, 0, 0, s.check.last⟩
        acc := { s.acc with checkInBlock := s.acc.checkInBlock.set p.chan true }
        range := s.range.set p.chan { s.range.get p.chan with frozen := true, windowCounter := 0, windowPeak := 0 }
        monitor := (s.beginCheck p).monitor, capture := (s.beginCheck p).capture
        report := (s.beginCheck p).report, fifo := (s.beginCheck p).fifo } := by
  rw [beginCheck_eq, closeEpisode_frame]
  rfl

/-- Settles O59: the close of the channel's episode, and the end of a running check. -/
theorem startAndAbortCheck : Obligations.StartAndAbortCheck := by
  refine ⟨fun s tag p rest low high short long calibrator internal begins => ⟨fun busy => ?_, fun idle running => ?_⟩,
    fun s tag body rest length begins idle running => ?_, fun s tag rest begins => ⟨fun idle => ?_, fun p busy params => ?_⟩⟩
  · refine exec_answer (i := .startCheck tag (startCheckBody p)) (rule := startCheckRule)
      (a := .refuse (s.taken rest) .wrongState) rfl begins rfl ?_
    unfold startCheckRule
    rw [taken_check, taken_port]
    by_cases idle : s.check.phase = .idle
    · rw [if_neg (not_not_intro idle), if_pos (busy.resolve_left (not_not_intro idle))]
    · rw [if_pos idle]
  · have startable : p.Startable := ⟨low, high, short, long, fun src => ⟨(calibrator src).1, (calibrator src).2.1⟩,
      fun src => (internal src).2.2⟩
    have fields : (-32768 ≤ p.expected ∧ p.expected ≤ 32767) ∧ p.amplitude < 2 ^ 32 ∧ p.gain < 256 := by
      cases src : p.source with
      | calibrator =>
        obtain ⟨nonneg, top, wide, step⟩ := calibrator src
        omega
      | internal =>
        obtain ⟨bottom, top, -, wide, step, -⟩ := internal src
        omega
    have rule : startCheckRule (startCheckBody p) (s.taken rest) = .done ((s.taken rest).beginCheck p) := by
      unfold startCheckRule
      rw [taken_check, taken_port, if_neg (not_not_intro idle), if_neg (by rw [running]; decide),
        startCheckOf_body startable fields.1 fields.2.1 fields.2.2]
    obtain ⟨q, answered, run⟩ := exec_answer (i := .startCheck tag (startCheckBody p)) (rule := startCheckRule) rfl begins rfl
      rule
    have closed := (ClosedOn.start ((s.taken rest).checkBegun p) .check s.clock.now).close (c := p.chan) (fun h => (nomatch h))
      (punctual_of_reason rfl)
    have whole := beginCheck_eq (s.taken rest) p
    refine ⟨_, run, ?_, ?_, ?_, ?_, repliedLast_of_answered answered, fun none => ?_, fun e opened => ?_⟩
    · exact congrArg (fun u : State => { u with report := q }) (beginCheck_frame (s.taken rest) p)
    · exact congrArg State.check (beginCheck_begins (s.taken rest) p)
    · exact congrArg State.acc (beginCheck_begins (s.taken rest) p)
    · exact congrArg State.range (beginCheck_begins (s.taken rest) p)
    · have stays : ((s.taken rest).checkBegun p).closeEpisode p.chan .check s.clock.now = (s.taken rest).checkBegun p :=
        closeEpisode_idle none
      have whole := whole.trans (congrArg (State.setRange · p.chan (s.range.get p.chan).freeze) stays)
      have monitor : ((s.taken rest).beginCheck p).monitor = s.monitor := by rw [whole]; rfl
      have capture : ((s.taken rest).beginCheck p).capture = s.capture := by rw [whole]; rfl
      have fifo : ((s.taken rest).beginCheck p).fifo = s.fifo := by rw [whole]; rfl
      have report : ((s.taken rest).beginCheck p).report = s.report := by rw [whole]; rfl
      rw [← report]
      exact ⟨monitor, capture, fifo, answered⟩
    · have monitor : ((s.taken rest).beginCheck p).monitor = s.monitor.set p.chan (s.monitor.get p.chan).closed := by
        rw [whole]
        exact closeEpisode_monitor
      have capture : ((s.taken rest).beginCheck p).capture =
          (((s.taken rest).checkBegun p).closeEpisode p.chan .check s.clock.now).capture := by rw [whole]; rfl
      refine ⟨monitor.trans ?_, ?_, ?_, fun room => ?_⟩
      · unfold MonitorChan.closed
        rw [opened]
      · dsimp only [Answer.done]
        rw [capture]
        exact closed.capture
      · have tails := closed.tailsBegun (by decide) (which := fun c => c = p.chan) fun c => by simp
        dsimp only [Answer.done]
        rw [capture]
        exact tails
      · have notices : ∃ more, ((s.taken rest).checkBegun p).closeNotices .check s.clock.now p.chan =
            ⟨some p.chan, s.clock.now, .episodeClosed
              ⟨e.number, p.chan, e.start, s.clock.now, e.duration, e.maxLevel, e.maxTime,
                level (s.store.active.chan.get p.chan).k e.q 48000, e.captureId, .check⟩⟩ :: more ∧ more.length ≤ 1 := by
          unfold State.closeNotices closingNotices
          rw [show (((s.taken rest).checkBegun p).monitor.get p.chan).episode = some e from opened]
          refine ⟨_, rfl, ?_⟩
          split
          · split
            · rw [List.length_map]
              exact Option.length_toList_le ..
            · exact Nat.zero_le 1
          · exact Nat.zero_le 1
        obtain ⟨more, notices, few⟩ := notices
        have offers := closed.offered.open_
        rw [List.nil_append, notices] at offers
        refine ⟨more, (answered_events answered).trans ?_⟩
        have told := (offers (1 - more.length) (by
          rw [List.length_cons, show more.length + 1 + (1 - more.length) = 2 by omega]
          exact room)).2
        have events := congrArg ReportQueue.events told
        rw [whole]
        exact events
  · intro at' word amplitude bad
    refine exec_answer (i := .startCheck tag body) (rule := startCheckRule) (a := .refuse (s.taken rest) .badValue) rfl begins
      (by rw [length]; rfl) ?_
    unfold startCheckRule
    rw [taken_check, taken_port, if_neg (not_not_intro idle), if_neg (by rw [running]; decide), startCheckOf_none ?_]
    exact bad
  · refine exec_answer (i := .abortCheck tag []) (rule := abortCheckRule) (a := .refuse (s.taken rest) .wrongState) rfl begins
      rfl ?_
    unfold abortCheckRule
    rw [taken_check, if_pos idle]
  · have running : Running (s.taken rest) p := ⟨busy, params⟩
    have rule : abortCheckRule [] (s.taken rest) = .done ((s.taken rest).cutCheck .aborted s.clock.now) := by
      unfold abortCheckRule
      rw [taken_check, if_neg busy]
      rfl
    obtain ⟨q, answered, run⟩ := exec_answer (i := .abortCheck tag []) (rule := abortCheckRule) rfl begins rfl rule
    have cut := cutCheck_running (result := .aborted) running (by decide) (by decide) s.clock.now
    have offers := cutCheck_offers (result := .aborted) running (by decide) (by decide) s.clock.now
    refine ⟨_, run, ?_, repliedLast_of_answered answered, fun room => ?_⟩
    · dsimp only
      rw [cut, offer_frame]
      rfl
    · exact (answered_events answered).trans (offers.events room).2

end Sys2Proof.Machine
end

section
/-! PROOFS. The stall of the input (R4, R5, R114, R155). -/

namespace Sys2Proof.Machine

theorem closeNotices_length_le (s : State) (reason : CloseReason) (stamp : Stamp) (c : Chan) :
    (s.closeNotices reason stamp c).length ≤ 2 := by
  unfold State.closeNotices closingNotices
  split
  · exact Nat.zero_le 2
  · rw [List.length_cons]
    refine Nat.succ_le_succ ?_
    split
    · split
      · rw [List.length_map]
        exact Option.length_toList_le ..
      · exact Nat.zero_le 1
    · exact Nat.zero_le 1

/-! ### The end of a running check by another block's event -/

/-- The notice of a check cut short, if one runs. -/
def State.cutNotices (s : State) (result : CheckEnd) (stamp : Stamp) : List Notice :=
  match s.check.params with
  | some p =>
    if s.check.phase = .idle then []
    else [⟨some p.chan, stamp, .checkDone (cutRecord s p result (s.store.staged.chan.get p.chan).k)⟩]
  | none => []

theorem cutNotices_running {s : State} {p : CheckParams} (running : Running s p) (result : CheckEnd) (stamp : Stamp) :
    s.cutNotices result stamp =
      [⟨some p.chan, stamp, .checkDone (cutRecord s p result (s.store.staged.chan.get p.chan).k)⟩] := by
  unfold State.cutNotices
  rw [running.2]
  exact if_neg running.1

theorem cutNotices_idle {s : State} (idle : ∀ p, ¬Running s p) (result : CheckEnd) (stamp : Stamp) :
    s.cutNotices result stamp = [] := by
  unfold State.cutNotices
  split
  next p params => exact if_pos (not_not.1 fun busy => idle p ⟨busy, params⟩)
  next => rfl

theorem cutNotices_length_le (s : State) (result : CheckEnd) (stamp : Stamp) : (s.cutNotices result stamp).length ≤ 1 := by
  unfold State.cutNotices
  split
  · split
    · exact Nat.zero_le 1
    · exact le_rfl
  · exact Nat.zero_le 1

/-- A check cut short, as the check engine, the range controllers and the units of `s` give it. -/
structure CutAs (s : State) (result : CheckEnd) (t : State) : Prop where
  idle : (∀ p, ¬Running s p) → t.check = s.check ∧ t.range = s.range ∧ t.unit = s.unit
  running : ∀ p, Running s p →
    t.check = ⟨.idle, none, 0, 0, some (cutRecord s p result (s.store.staged.chan.get p.chan).k)⟩ ∧
      t.range = s.range.set p.chan { s.range.get p.chan with frozen := false } ∧
      t.unit = s.unit.set p.chan
        { s.unit.get p.chan with main := .rest, peak := .rest, yF := 0, yS := 0, fCount := 0, sCount := 0 }

theorem CutAs.congr {s t u : State} {result : CheckEnd} (h : CutAs s result t) (check : u.check = t.check)
    (range : u.range = t.range) (unit : u.unit = t.unit) : CutAs s result u :=
  ⟨fun none => by rw [check, range, unit]; exact h.idle none, fun p found => by rw [check, range, unit]; exact h.running p found⟩

section Cut
variable {s t : State} {result : CheckEnd} (stamp : Stamp) (check : t.check = s.check) (store : t.store = s.store)
include check store

/-- A check cut short in a state that has the check engine and the store of `s` (R154). -/
theorem cutCheck_offered (cut : result ≠ .pass) (cut' : result ≠ .fail) :
    Offered t (t.cutCheck result stamp) (s.cutNotices result stamp) := by
  have same : t.cutNotices result stamp = s.cutNotices result stamp := by
    unfold State.cutNotices cutRecord
    rw [check, store]
  rw [← same]
  by_cases running : ∃ p, Running t p
  · obtain ⟨p, running⟩ := running
    rw [cutCheck_running running cut cut', cutNotices_running running]
    exact (Offered.one _ _ _ _).before rfl rfl
  · have idle : ∀ p, ¬Running t p := fun p found => running ⟨p, found⟩
    rw [cutCheck_idle idle, cutNotices_idle idle]
    exact Offered.none rfl rfl

theorem cutCheck_cutAs (cut : result ≠ .pass) (cut' : result ≠ .fail) (range : t.range = s.range) (unit : t.unit = s.unit) :
    CutAs s result (t.cutCheck result stamp) := by
  have runs (p : CheckParams) : Running t p ↔ Running s p := by unfold Running; rw [check]
  refine ⟨fun idle => ?_, fun p running => ?_⟩
  · rw [cutCheck_idle fun p found => idle p ((runs p).1 found)]
    exact ⟨check, range, unit⟩
  · rw [cutCheck_running ((runs p).2 running) cut cut']
    refine ⟨?_, ?_, ?_⟩
    · rw [offer_check]
      unfold cutRecord
      rw [check, store]
    · rw [offer_range, ← range]
      rfl
    · rw [offer_unit, ← unit]
      rfl

end Cut

/-! ### The effects of a stall in any order (R5) -/

/-- The channel of a stall's effect, none for the end of the check. -/
def StallEffect.on : StallEffect → Option Chan
  | .closeEpisode c => some c
  | .endCheck => none

/-- The notices of an effect as `s` stands. -/
def State.stallNotices (s : State) (x : Option Chan) : List Notice :=
  match x with
  | some c => s.closeNotices .stalled s.clock.now c
  | none => s.cutNotices .stalled s.clock.now

/-- Of the effects of a stall of `s` these are taken, behind the notice `first`. -/
structure StallTaken (s : State) (first : Notice) (done : List StallEffect) (t : State) : Prop where
  closed : ClosedOn s .stalled s.clock.now t (done.filterMap StallEffect.on)
    (first :: (done.map StallEffect.on).flatMap s.stallNotices)
  clock : t.clock = s.clock
  unended : .endCheck ∉ done → t.check = s.check ∧ t.range = s.range ∧ t.unit = s.unit
  ended : .endCheck ∈ done → CutAs s .stalled t

theorem stall_taken {s : State} {first : Notice} : ∀ (l done : List StallEffect) (t : State), (done ++ l).Nodup →
    StallTaken s first done t → StallTaken s first (done ++ l) (l.foldl (fun s x => x.take s) t)
  | [], done, t, _, h => by simpa using h
  | x :: l, done, t, nodup, h => by
    have fresh : x ∉ done := fun mem => (List.nodup_append.1 nodup).2.2 x mem x List.mem_cons_self rfl
    have next : StallTaken s first (done ++ [x]) (x.take t) := by
      cases x with
      | closeEpisode c =>
        have new : c ∉ done.filterMap StallEffect.on := fun mem => by
          obtain ⟨y, inside, on⟩ := List.mem_filterMap.1 mem
          cases y with
          | endCheck => cases on
          | closeEpisode d => cases on; exact fresh inside
        have other : .endCheck ∈ done ++ [.closeEpisode c] ↔ .endCheck ∈ done := by simp
        refine ⟨?_, ?_, fun none => ?_, fun mem => ?_⟩
        · have closed := h.closed.close new (punctual_of_reason rfl)
          rw [← h.clock] at closed
          rw [← h.clock]
          simpa [StallEffect.on, State.stallNotices, StallEffect.take, h.clock] using closed
        · exact (closeEpisode_clock ..).trans h.clock
        · rw [other] at none
          simpa [StallEffect.take] using h.unended none
        · rw [other] at mem
          exact (h.ended mem).congr (closeEpisode_check ..) (closeEpisode_range ..) (closeEpisode_unit ..)
      | endCheck =>
        obtain ⟨check, range, unit⟩ := h.unended fresh
        refine ⟨?_, ?_, fun none => absurd (List.mem_append_right _ (List.mem_singleton.2 rfl)) none, fun _ => ?_⟩
        · have closed := h.closed.after (u := t.cutCheck .stalled t.clock.now) (cutCheck_store ..) (cutCheck_blockWork ..)
            (cutCheck_capture ..) (cutCheck_monitor ..)
            (cutCheck_offered (result := .stalled) t.clock.now check h.closed.store (by decide) (by decide))
          simpa [StallEffect.on, State.stallNotices, StallEffect.take, h.clock, List.filterMap_cons] using closed
        · exact (cutCheck_clock ..).trans h.clock
        · exact cutCheck_cutAs _ check h.closed.store (by decide) (by decide) range unit
    have rest := stall_taken l (done ++ [x]) (x.take t) (by simpa using nodup) next
    simpa using rest

/-- Some order of the channels and the check in which the effects of `order` come as they do, and the others have none. -/
theorem stall_order (s : State) {order : List StallEffect} (perm : order.Perm s.stallEffects) :
    ∃ all : List (Option Chan), all.Perm (none :: Chan.all.map some) ∧
      (order.map StallEffect.on).flatMap s.stallNotices = all.flatMap s.stallNotices := by
  let idle : List (Option Chan) := (Chan.all.filter fun c => !(s.monitor.get c).episode.isSome).map some
  let rest : List (Option Chan) := if s.check.phase = .idle then [none] else []
  refine ⟨order.map StallEffect.on ++ (idle ++ rest), ?_, ?_⟩
  · have effects : s.stallEffects.map StallEffect.on =
        s.openEpisodes.map some ++ if s.check.phase = .idle then [] else [none] := by
      unfold State.stallEffects
      rw [List.map_append, List.map_map]
      congr 1
      split <;> rfl
    have channels : (s.openEpisodes.map some ++ idle).Perm (Chan.all.map some) := by
      rw [← List.map_append]
      exact (List.filter_append_perm (fun c => (s.monitor.get c).episode.isSome) Chan.all).map some
    have check : ((if s.check.phase = .idle then [] else [none]) ++ rest : List (Option Chan)) = [none] := by
      change (if s.check.phase = .idle then [] else [none]) ++ (if s.check.phase = .idle then [none] else []) = _
      split <;> rfl
    have moved := (perm.map StallEffect.on).append_right (idle ++ rest)
    rw [effects] at moved
    refine moved.trans (List.Perm.trans
      (l₂ := (s.openEpisodes.map some ++ idle) ++ ((if s.check.phase = .idle then [] else [none]) ++ rest)) ?_ ?_)
    · rw [List.append_assoc, List.append_assoc]
      exact (List.perm_append_comm_assoc ..).append_left _
    · rw [check]
      exact (channels.append_right _).trans List.perm_append_comm
  · have silent : (idle ++ rest).flatMap s.stallNotices = [] := by
      rw [List.flatMap_eq_nil_iff]
      intro x mem
      obtain mem | mem := List.mem_append.1 mem
      · obtain ⟨c, inside, rfl⟩ := List.mem_map.1 mem
        have none : (s.monitor.get c).episode = none := by simpa using (List.mem_filter.1 inside).2
        exact closeNotices_idle _ _ none
      · change x ∈ (if s.check.phase = .idle then [none] else []) at mem
        split at mem
        next phase =>
          rw [List.mem_singleton.1 mem]
          exact cutNotices_idle (fun p running => running.1 phase) ..
        next => cases mem
    rw [List.flatMap_append, silent, List.append_nil]

theorem stallNotices_length_le (s : State) {all : List (Option Chan)} (perm : all.Perm (none :: Chan.all.map some)) :
    (all.flatMap s.stallNotices).length ≤ 9 := by
  rw [(perm.flatMap_right s.stallNotices).length_eq]
  have cut := cutNotices_length_le s .stalled s.clock.now
  have closes := closeNotices_length_le s .stalled s.clock.now
  have c1 := closes .ch1
  have c2 := closes .ch2
  have c3 := closes .ch3
  have c4 := closes .ch4
  simp only [Chan.all, List.map_cons, List.map_nil, List.flatMap_cons, List.flatMap_nil, List.length_append, List.length_nil,
    State.stallNotices]
  omega

theorem stallEffects_nodup (s : State) : s.stallEffects.Nodup := by
  unfold State.stallEffects
  refine List.nodup_append.2 ⟨(List.Nodup.filter _ (by decide)).map fun _ _ h => StallEffect.closeEpisode.inj h, ?_, ?_⟩
  · split <;> simp
  · intro x mem y mem'
    obtain ⟨c, -, rfl⟩ := List.mem_map.1 mem
    split at mem'
    · cases mem'
    · rw [List.mem_singleton.1 mem']
      exact fun h => (nomatch h)

theorem mem_stallEffects (s : State) (x : StallEffect) :
    x ∈ s.stallEffects ↔ match x with
      | .closeEpisode c => (s.monitor.get c).episode.isSome = true
      | .endCheck => s.check.phase ≠ .idle := by
  unfold State.stallEffects State.openEpisodes
  cases x with
  | closeEpisode c =>
    rw [List.mem_append, List.mem_map]
    split <;> simp
  | endCheck =>
    rw [List.mem_append, List.mem_map]
    split <;> simp [*]

/-- The state in which INPUT_STALLED is offered and the open interval marked. -/
def State.stallTold (s : State) : State :=
  State.markGap (State.offer { s with port := { s.port with stalled := true } } none s.clock.now
    (.inputStalled s.port.frameCounter))

theorem stallTold_eq (s : State) :
    s.stallTold = { s with
      port := { s.port with stalled := true }, interval := s.interval.map fun iv => { iv with gap := true }
      report := s.stallTold.report, fifo := s.stallTold.fifo } := by
  unfold State.stallTold
  rw [markGap_frame, offer_frame]

theorem stallTold_offered (s : State) :
    Offered s s.stallTold [⟨none, s.clock.now, .inputStalled s.port.frameCounter⟩] := by
  refine ((Offered.one { s with port := { s.port with stalled := true } } none s.clock.now
    (.inputStalled s.port.frameCounter)).before rfl rfl).after ?_ ?_
  · unfold State.stallTold
    rw [markGap_frame]
  · unfold State.stallTold
    rw [markGap_frame]

/-- The stall takes its effects in some order, behind INPUT_STALLED. -/
theorem enterStalled_taken (s : State) :
    ∃ order : List StallEffect, order.Perm s.stallEffects ∧
      StallTaken s ⟨none, s.clock.now, .inputStalled s.port.frameCounter⟩ order (s.enterStalled Config.pick) := by
  have effects (u : State) (monitor : u.monitor = s.monitor) (check : u.check = s.check) : u.stallEffects = s.stallEffects := by
    unfold State.stallEffects State.openEpisodes
    rw [monitor, check]
  have whole : s.enterStalled Config.pick = s.stallTold.eachFreely Config.pick s.stallEffects StallEffect.take := by
    have offered := effects (State.offer { s with port := { s.port with stalled := true } } none s.clock.now
      (.inputStalled s.port.frameCounter)) (offer_monitor ..) (offer_check ..)
    unfold State.enterStalled
    dsimp only
    rw [offered]
    rfl
  have started : StallTaken s ⟨none, s.clock.now, .inputStalled s.port.frameCounter⟩ []
      { s.stallTold with choice := s.stallTold.choice + s.stallEffects.length } := by
    have store : s.stallTold.store = s.store := by rw [stallTold_eq]
    have work : s.stallTold.blockWork = s.blockWork := by rw [stallTold_eq]
    have capture : s.stallTold.capture = s.capture := by rw [stallTold_eq]
    have monitor : s.stallTold.monitor = s.monitor := by rw [stallTold_eq]
    have clock : s.stallTold.clock = s.clock := by rw [stallTold_eq]
    have channels : s.stallTold.check = s.check ∧ s.stallTold.range = s.range ∧ s.stallTold.unit = s.unit := by
      rw [stallTold_eq]
      exact ⟨rfl, rfl, rfl⟩
    exact ⟨(ClosedOn.start s .stalled s.clock.now).after store work capture monitor ((stallTold_offered s).after rfl rfl), clock,
      fun _ => channels, fun h => (nomatch h)⟩
  have perm := anyOrder_perm Config.pick s.stallTold.choice s.stallEffects
  have taken := stall_taken _ [] _ (perm.nodup_iff.2 (stallEffects_nodup s)) started
  rw [List.nil_append] at taken
  rw [whole]
  exact ⟨_, perm, taken⟩

/-- Settles O20: the effects of the stall in whatever order they are taken. -/
theorem stallClosesAndMarks : Obligations.StallClosesAndMarks := by
  refine ⟨fun s t done => ?_, fun s none => ?_⟩
  · cases done
    change Host.Outcome.next _ = Host.Outcome.next _
    rw [finishBlock_finishBlock]
  intro now ended closes
  have run : exec .stallTimeout s = .next (if s.port.stalled then s else s.enterStalled Config.pick) := by
    change Host.Outcome.next _ = Host.Outcome.next _
    rw [finishBlock_of_none _ s none]
  refine ⟨fun stalled => run.trans (by rw [if_pos stalled]), fun running => ?_⟩
  have run := run.trans (congrArg Host.Outcome.next (if_neg (by rw [running]; decide)))
  obtain ⟨order, perm, taken⟩ := enterStalled_taken s
  have closed := taken.closed
  have opened (c : Chan) : c ∈ order.filterMap StallEffect.on ↔ (s.monitor.get c).episode.isSome = true := by
    rw [List.mem_filterMap]
    simp only [perm.mem_iff, mem_stallEffects]
    constructor
    · rintro ⟨x, mem, on⟩
      cases x with
      | closeEpisode d => cases on; exact mem
      | endCheck => cases on
    · exact fun h => ⟨.closeEpisode c, h, rfl⟩
  have cut : CutAs s .stalled (s.enterStalled Config.pick) := by
    by_cases mem : .endCheck ∈ order
    · exact taken.ended mem
    · have idle : s.check.phase = .idle := not_not.1 fun busy => mem (perm.mem_iff.2 ((mem_stallEffects ..).2 busy))
      exact ⟨fun _ => taken.unended mem, fun p running => absurd idle running.1⟩
  obtain ⟨all, allPerm, same⟩ := stall_order s perm
  refine ⟨_, run, ?_, fun c => ?_, ?_, cut.idle, cut.running, fun room => ?_⟩
  · have frame := enterStalled_frame s Config.pick
    rw [closed.store, closed.capture] at frame
    exact frame
  · rw [closed.monitor c]
    split
    next => rfl
    next idle =>
      rw [opened] at idle
      unfold MonitorChan.closed
      rw [Option.not_isSome_iff_eq_none.1 idle]
  · exact closed.tailsBegun (by decide) fun c => by rw [opened]; simp
  · have offered := closed.offered.open_
    rw [same] at offered
    have few := stallNotices_length_le s allPerm
    obtain ⟨fifo, report⟩ := offered (9 - (all.flatMap s.stallNotices).length) (by
      rw [List.length_cons, show _ + 1 + (9 - (all.flatMap s.stallNotices).length) = 10 by omega]
      exact room)
    refine ⟨fifo, all, allPerm, s.cutNotices .stalled now, fun idle => cutNotices_idle idle .., fun p running =>
      cutNotices_running running .., ?_⟩
    rw [report]
    dsimp only
    congr 3

end Sys2Proof.Machine
end

section
/-! PROOFS. The soft reset (R17, R35, R100, R110, R115, R123, R146, R154, R158, R171, R180). -/

namespace Sys2Proof.Machine

/-! ### The captures that end with TRUNCATED (R146) -/

/-- From `s` to `t` the recordings of the channels `cs` became STORED with TRUNCATED, and these notices were offered. -/
structure TailsEnded (s t : State) (cs : List Chan) (ns : List Notice) : Prop where
  frame : t = { s with capture := { s.capture with regions := t.capture.regions }, report := t.report, fifo := t.fifo }
  taken : ∀ c ∈ cs, ∀ i d tail, s.capture.recording c = some (i, d, tail) →
    t.capture.regions[i] = .stored { d with truncated := true }
  others : ∀ i : Fin 16, (∀ c ∈ cs, ∀ d tail, s.capture.recording c ≠ some (i, d, tail)) →
    t.capture.regions[i] = s.capture.regions[i]
  recording : ∀ c, c ∉ cs → t.capture.recording c = s.capture.recording c
  offered : Offered s t ns

/-- The notice of the end of a channel's recording. -/
def Capture.tailNotices (k : Capture) (stamp : Stamp) (c : Chan) : List Notice :=
  match k.recording c with
  | some (i, d, _) => [⟨some c, stamp, .captureStored i { d with truncated := true }⟩]
  | none => []

theorem tailNotices_length_le (k : Capture) (stamp : Stamp) (c : Chan) : (k.tailNotices stamp c).length ≤ 1 := by
  unfold Capture.tailNotices
  split
  · exact le_rfl
  · exact Nat.zero_le 1

namespace TailsEnded

variable {s t : State} {cs : List Chan} {ns : List Notice} {c : Chan}

theorem start (s : State) : TailsEnded s s [] [] :=
  ⟨rfl, fun _ h => (nomatch h), fun _ _ => rfl, fun _ _ => rfl, Offered.none rfl rfl⟩

theorem next (h : TailsEnded s t cs ns) (fresh : c ∉ cs) :
    TailsEnded s (t.endTail c) (cs ++ [c]) (ns ++ s.capture.tailNotices s.clock.now c) := by
  have found := h.recording c fresh
  have clock : t.clock = s.clock := by rw [h.frame]
  have member (x : Chan) : x ∈ cs ++ [c] ↔ x ∈ cs ∨ x = c := by rw [List.mem_append, List.mem_singleton]
  cases look : s.capture.recording c with
  | none =>
    have same : t.endTail c = t := by
      unfold State.endTail
      rw [found, look]
    have notices : s.capture.tailNotices s.clock.now c = [] := by
      unfold Capture.tailNotices
      rw [look]
    rw [same, notices, List.append_nil]
    refine ⟨h.frame, fun x mem i d tail fx => ?_, fun i other => h.others i fun x old => other x ((member x).2 (.inl old)),
      fun x other => h.recording x fun old => other ((member x).2 (.inl old)), h.offered⟩
    obtain old | rfl := (member x).1 mem
    · exact h.taken x old i d tail fx
    · exact nomatch look.symm.trans fx
  | some x =>
    obtain ⟨i, d, tail⟩ := x
    obtain ⟨was, chan⟩ := Capture.recording_some (found.trans look)
    have whole : t.endTail c = t.storeCapture i { d with truncated := true } s.clock.now := by
      unfold State.endTail
      rw [found, look, clock]
    have notices : s.capture.tailNotices s.clock.now c =
        [⟨some c, s.clock.now, .captureStored i { d with truncated := true }⟩] := by
      unfold Capture.tailNotices
      rw [look]
    have capture : (t.endTail c).capture =
        { t.capture with regions := t.capture.regions.set i (.stored { d with truncated := true }) } := by
      rw [whole]
      exact (storeCapture_ends ..).1
    have offered : Offered t (t.endTail c) (s.capture.tailNotices s.clock.now c) := by
      rw [whole, notices]
      unfold State.storeCapture
      rw [show some (({ d with truncated := true } : Descriptor).chan) = some c from congrArg some chan]
      exact (Offered.one _ _ _ _).before rfl rfl
    have role (j : Fin 16) : (t.endTail c).capture.regions[j] =
        if j = i then .stored { d with truncated := true } else t.capture.regions[j] := by
      rw [capture]
      dsimp only
      by_cases same : j = i
      · rw [if_pos same, same]
        exact Vector.getElem_set_self ..
      · rw [if_neg same]
        exact Vector.getElem_set_ne (Nat.lt_of_lt_of_le i.isLt le_rfl) _ fun e => same (Fin.ext e.symm)
    have here := Capture.recording_some look
    refine ⟨?_, fun x mem j d' tail' fx => ?_, fun j other => ?_, fun x other => ?_, h.offered.trans offered⟩
    · have frame := endTail_frame t c
      rw [capture, h.frame] at frame
      rw [capture, h.frame]
      exact frame
    · rw [role]
      obtain old | same := (member x).1 mem
      · have apart : j ≠ i := fun same => by
          subst same
          have there := Capture.recording_some fx
          cases there.1.symm.trans here.1
          exact fresh (here.2.symm.trans there.2 ▸ old)
        rw [if_neg apart]
        exact h.taken x old j d' tail' fx
      · subst same
        cases look.symm.trans fx
        rw [if_pos rfl]
    · have apart : j ≠ i := fun same => other c ((member c).2 (.inr rfl)) d tail (same ▸ look)
      rw [role, if_neg apart]
      exact h.others j fun x old => other x ((member x).2 (.inl old))
    · have away : d.chan ≠ x := fun same => other ((member x).2 (.inr (same.symm.trans chan)))
      rw [capture]
      refine (recording_set_other ?_ rfl).trans (h.recording x fun old => other ((member x).2 (.inl old)))
      rw [was]
      exact decide_eq_false away

theorem all (s : State) :
    TailsEnded s (Chan.all.foldl State.endTail s) Chan.all (Chan.all.flatMap (s.capture.tailNotices s.clock.now)) := by
  have ended := ((((start s).next (c := .ch1) (by decide)).next (c := .ch2) (by decide)).next (c := .ch3) (by decide)).next
    (c := .ch4) (by decide)
  simpa [Chan.all] using ended

end TailsEnded

/-! ### Closes in a free order -/

/-- Closes in a free order, stamped with what no close changes, are closes one after another in some order (R110). -/
theorem eachFreely_closed {b s : State} {reason : CloseReason} {stamp : Stamp} {ns : List Notice}
    (start : ClosedOn b reason stamp s [] ns) (punctual : Punctual b reason) {g : State → Stamp} (here : g s = stamp)
    (keeps : ∀ (u : State) (n : Nat) (c : Chan), g { u with choice := n } = g u ∧ g (u.closeEpisode c reason stamp) = g u)
    {l : List Chan} (nodup : l.Nodup) :
    ∃ order, order.Perm l ∧
      ClosedOn b reason stamp (s.eachFreely Config.pick l fun c u => u.closeEpisode c reason (g u)) order
        (ns ++ order.flatMap (b.closeNotices reason stamp)) := by
  have perm := anyOrder_perm Config.pick s.choice l
  have stamped (order : List Chan) : ∀ u : State, g u = stamp →
      order.foldl (fun u c => u.closeEpisode c reason (g u)) u =
        order.foldl (fun u c => u.closeEpisode c reason stamp) u := by
    induction order with
    | nil => exact fun _ _ => rfl
    | cons c order ih =>
      intro u same
      rw [List.foldl_cons, List.foldl_cons, same]
      exact ih _ ((keeps u 0 c).2.trans same)
  have begun : ClosedOn b reason stamp { s with choice := s.choice + l.length } [] ns := by
    have := start.after (u := { s with choice := s.choice + l.length }) rfl rfl rfl rfl (Offered.none rfl rfl)
    rwa [List.append_nil] at this
  refine ⟨anyOrder Config.pick s.choice l, perm, ?_⟩
  unfold State.eachFreely
  rw [stamped _ _ ((keeps s _ .ch1).1.trans here)]
  have closed := ClosedOn.closeList punctual (anyOrder Config.pick s.choice l) [] _ _ (perm.nodup_iff.2 nodup) begun
  rwa [List.nil_append] at closed

/-- An order of some channels extends to one of all, the others having no notices. -/
theorem flatMap_all_channels {order : List Chan} {p : Chan → Bool} (perm : order.Perm (Chan.all.filter p))
    (f : Chan → List Notice) (silent : ∀ c, p c = false → f c = []) :
    ∃ all : List Chan, all.Perm Chan.all ∧ order.flatMap f = all.flatMap f := by
  refine ⟨order ++ Chan.all.filter fun c => !p c, (perm.append_right _).trans (List.filter_append_perm p Chan.all), ?_⟩
  have none : (Chan.all.filter fun c => !p c).flatMap f = [] :=
    List.flatMap_eq_nil_iff.2 fun c mem => silent c (by simpa using (List.mem_filter.1 mem).2)
  rw [List.flatMap_append, none, List.append_nil]

theorem openEpisodes_nodup (s : State) : s.openEpisodes.Nodup := List.Nodup.filter _ (by decide)

theorem mem_openEpisodes (s : State) (c : Chan) : c ∈ s.openEpisodes ↔ (s.monitor.get c).episode.isSome = true := by
  unfold State.openEpisodes
  rw [List.mem_filter]
  exact and_iff_right (Chan.mem_all c)

/-! ### The offers of the reset, one kind after another (R146, R158, R171) -/

/-- The offers of a soft reset from `s` to `t`: the closes, by `t1`; the ends of the recordings that remain, by `t2`; and the
end of a running check. -/
structure ResetTaken (s t t1 t2 : State) (order all : List Chan) : Prop where
  ordered : order.Perm s.openEpisodes
  complete : all.Perm Chan.all
  closed : ClosedOn s .reset s.clock.now t1 order (all.flatMap (s.closeNotices .reset s.clock.now))
  tails : TailsEnded t1 t2 Chan.all (Chan.all.flatMap (t1.capture.tailNotices s.clock.now))
  capture : t.capture = { t2.capture.emptyRings with
    buffer := t2.capture.buffer.filter (fun e => !t2.capture.addressedToRing e), closeBlock := .same false }
  monitor : t.monitor = t1.monitor
  store : t.store = s.store
  cut : CutAs s .reset t
  offered : Offered s t (all.flatMap (s.closeNotices .reset s.clock.now) ++
    Chan.all.flatMap (t1.capture.tailNotices s.clock.now) ++ s.cutNotices .reset s.clock.now)

theorem resetOffers_taken (s : State) : ∃ t1 t2 order all, ResetTaken s (s.resetOffers Config.pick) t1 t2 order all := by
  obtain ⟨order, perm, closed⟩ := eachFreely_closed (ClosedOn.start s .reset s.clock.now) (punctual_of_reason rfl)
    (g := fun u => u.clock.now) rfl (fun u n c => ⟨rfl, by rw [closeEpisode_clock]⟩) (openEpisodes_nodup s)
  obtain ⟨all, allPerm, same⟩ := flatMap_all_channels perm (s.closeNotices .reset s.clock.now)
    fun c idle => closeNotices_idle _ _ (Option.not_isSome_iff_eq_none.1 (by rw [idle]; exact Bool.noConfusion))
  rw [List.nil_append, same] at closed
  have frame := closeAll_frame s Config.pick s.openEpisodes .reset fun u => u.clock.now
  generalize whole : (s.eachFreely Config.pick s.openEpisodes fun c u => u.closeEpisode c .reset u.clock.now) = t1 at closed frame
  have clock : t1.clock = s.clock := by rw [frame]
  have tails := TailsEnded.all t1
  rw [clock] at tails
  have reset : t1.resetCapture = { Chan.all.foldl State.endTail t1 with
      capture := { (Chan.all.foldl State.endTail t1).capture.emptyRings with
        buffer := (Chan.all.foldl State.endTail t1).capture.buffer.filter
          fun e => !(Chan.all.foldl State.endTail t1).capture.addressedToRing e
        closeBlock := .same false } } := rfl
  generalize Chan.all.foldl State.endTail t1 = t2 at tails reset
  have check : t1.resetCapture.check = s.check := by rw [reset, tails.frame, frame]
  have range : t1.resetCapture.range = s.range := by rw [reset, tails.frame, frame]
  have unit : t1.resetCapture.unit = s.unit := by rw [reset, tails.frame, frame]
  have store : t1.resetCapture.store = s.store := by rw [reset, tails.frame]; exact closed.store
  have final : s.resetOffers Config.pick = t1.resetCapture.cutCheck .reset s.clock.now := by
    unfold State.resetOffers
    dsimp only
    rw [whole, clock]
  refine ⟨t1, t2, order, all, perm, allPerm, closed, tails, ?_, ?_, ?_, ?_, ?_⟩
  · rw [final, cutCheck_capture, reset]
  · rw [final, cutCheck_monitor, reset, tails.frame]
  · rw [final, cutCheck_store, store]
  · rw [final]
    exact cutCheck_cutAs _ check store (by decide) (by decide) range unit
  · rw [final]
    refine ((closed.offered.trans tails.offered).after (u := t1.resetCapture) ?_ ?_).trans
      (cutCheck_offered _ check store (by decide) (by decide))
    · rw [reset]
    · rw [reset]

/-! ### What becomes of the regions -/

/-- A channel with one recording at most has its recording found. -/
theorem recording_of_count {k : Capture} {c : Chan} (one : k.count (Role.isRecordingOf c) ≤ 1) {i : Fin 16} {d : Descriptor}
    {tail : Option Nat} (role : k.regions[i] = .recording d tail) (chan : d.chan = c) :
    ∀ (j : Fin 16) (d' : Descriptor) (tail' : Option Nat), k.regions[j] = .recording d' tail' → d'.chan = c → j = i := by
  intro j d' tail' role' chan'
  by_contra apart
  have yes : Role.isRecordingOf c k.regions[i] = true := (isRecordingOf_iff ..).2 ⟨d, tail, role, chan⟩
  have count := Capture.count_set k (Role.isRecordingOf c) i .free
  rw [if_pos yes, if_neg (by exact Bool.noConfusion)] at count
  have none : (k.regions.set i .free).toList.countP (Role.isRecordingOf c) = 0 := by omega
  have stays : (k.regions.set i .free)[j] = k.regions[j] :=
    Vector.getElem_set_ne (Nat.lt_of_lt_of_le i.isLt le_rfl) _ fun e => apart (Fin.ext e.symm)
  have mem : k.regions[j] ∈ (k.regions.set i .free).toList := by
    rw [← stays]
    simp
  exact List.countP_eq_zero.1 none _ mem ((isRecordingOf_iff ..).2 ⟨d', tail', role', chan'⟩)

namespace ResetTaken

variable {s t t1 t2 : State} {order all : List Chan} (h : ResetTaken s t t1 t2 order all)
include h

/-- A region is left as it is, or its recording becomes STORED (R146). -/
theorem region_cases (i : Fin 16) :
    t.capture.regions[i] = s.capture.regions[i] ∨
      (∃ d tail, s.capture.regions[i] = .recording d tail) ∧ ∃ d, t.capture.regions[i] = .stored d := by
  have last : t.capture.regions[i] = t2.capture.regions[i] := by rw [h.capture]; rfl
  have second : t2.capture.regions[i] = t1.capture.regions[i] ∨
      (∃ d tail, t1.capture.regions[i] = .recording d tail) ∧ ∃ d, t2.capture.regions[i] = .stored d := by
    by_cases found : ∃ c d tail, t1.capture.recording c = some (i, d, tail)
    · obtain ⟨c, d, tail, found⟩ := found
      exact .inr ⟨⟨d, tail, (Capture.recording_some found).1⟩, _, h.tails.taken c (Chan.mem_all c) i d tail found⟩
    · exact .inl (h.tails.others i fun c _ d tail here => found ⟨c, d, tail, here⟩)
  rw [last]
  by_cases taken : ∃ c ∈ order, ∃ e d, RecordedBy s c e i d
  · obtain ⟨c, mem, e, d, r⟩ := taken
    have first := h.closed.taken c mem e i d r
    refine .inr ⟨⟨d, none, (Capture.recording_some r.2.1).1⟩, { d with truncated := true }, ?_⟩
    obtain same | ⟨⟨d', tail, still⟩, -⟩ := second
    · exact same.trans first
    · exact nomatch first.symm.trans still
  · have first := h.closed.others i fun c mem e d r => taken ⟨c, mem, e, d, r⟩
    rw [first] at second
    exact second

theorem mem_order (c : Chan) : c ∈ order ↔ (s.monitor.get c).episode.isSome = true := by
  rw [h.ordered.mem_iff]
  exact mem_openEpisodes s c

theorem region_other {i : Fin 16} (other : ∀ d tail, s.capture.regions[i] ≠ .recording d tail) :
    t.capture.regions[i] = s.capture.regions[i] :=
  (h.region_cases i).resolve_right fun ⟨⟨d, tail, was⟩, _⟩ => other d tail was

/-- The entries of the write buffer that stay are those of regions that are no rings (R146). -/
theorem buffer : t.capture.buffer =
    s.capture.buffer.filter fun e => Chan.all.all fun c => s.capture.regions[e.region] ≠ .ring c := by
  have same : t2.capture.buffer = s.capture.buffer := by rw [h.tails.frame, h.closed.capture]
  rw [h.capture]
  dsimp only
  rw [same]
  refine List.filter_congr fun e _ => ?_
  have role : t2.capture.regions[e.region] = t.capture.regions[e.region] := by rw [h.capture]; rfl
  have ring (r : Role) : (!Role.isRing r) = Chan.all.all fun c => decide (r ≠ .ring c) := by
    cases r with
    | ring c => cases c <;> decide
    | _ => rfl
  rw [Capture.addressedToRing, role, ← ring]
  obtain stays | ⟨⟨d, tail, was⟩, d', becomes⟩ := h.region_cases e.region
  · rw [stays]
  · rw [was, becomes]
    rfl

/-- The capture controller behind the reset: its regions, empty rings, and the entries that stay (R146). -/
theorem capture_eq : t.capture = { s.capture with
    regions := t.capture.regions, rings := .same ⟨0, 0, none⟩, closeBlock := .same false
    buffer := s.capture.buffer.filter fun e => Chan.all.all fun c => s.capture.regions[e.region] ≠ .ring c } := by
  have buffer := h.buffer
  have first := h.closed.capture
  have second : t2.capture = { t1.capture with regions := t2.capture.regions } := congrArg State.capture h.tails.frame
  rw [← buffer, h.capture, second, first]
  rfl

/-- The monitor behind the closes and its own reset (R110, R115). -/
theorem monitor_reset (c : Chan) : (t.monitor.get c).softReset =
    { budget := none, warned := false, spent := false, lmax := none, releaseTime := 0, peak := none, peaksOver := 0
      episodesOpened := 0, releaseCounter := 0, episode := none, peakHoldOff := 0, peaksSuppressed := 0
      phase := if (s.monitor.get c).episode.isSome = true then .idle else (s.monitor.get c).phase } := by
  rw [h.monitor, h.closed.monitor c]
  simp only [h.mem_order]
  cases opened : (s.monitor.get c).episode with
  | none =>
    rw [Option.isSome_none, if_neg Bool.noConfusion, if_neg Bool.noConfusion]
    unfold MonitorChan.softReset MonitorChan.dropThresholds
    rw [opened]
  | some e =>
    rw [Option.isSome_some, if_pos rfl, if_pos rfl, MonitorChan.closed, opened]
    rfl

section Roles
variable (roles : RolesHeld s)
include roles

/-- The recordings that the closes leave (R134, R146). -/
theorem recording_left (c : Chan) :
    t1.capture.recording c = match s.capture.recording c with
      | none => none
      | some (i, d, tail) =>
        if tail = none ∧ (s.monitor.get c).episode.bind (·.captureId) = some d.id then none else some (i, d, tail) := by
  have recorded (e : Episode) (i : Fin 16) (d : Descriptor) (r : RecordedBy s c e i d) :
      t1.capture.recording c = none := by
    obtain ⟨opened, found, id⟩ := r
    obtain ⟨role, chan⟩ := Capture.recording_some found
    refine recording_eq_none fun j d' tail' role' chan' => ?_
    have was : s.capture.regions[j] = .recording d' tail' := by
      by_cases taken : ∃ x ∈ order, ∃ e d, RecordedBy s x e j d
      · obtain ⟨x, mem, e', d'', r'⟩ := taken
        exact nomatch (h.closed.taken x mem e' j d'' r').symm.trans role'
      · rw [← h.closed.others j fun x mem e d r => taken ⟨x, mem, e, d, r⟩]
        exact role'
    obtain rfl := recording_of_count (roles c).2 role chan j d' tail' was chan'
    have gone := h.closed.taken c ((h.mem_order c).2 (by rw [opened]; rfl)) e j d ⟨opened, found, id⟩
    exact nomatch gone.symm.trans role'
  have kept (none : ∀ e i d, ¬RecordedBy s c e i d) : t1.capture.recording c = s.capture.recording c :=
    h.closed.recording c fun _ => none
  cases look : s.capture.recording c with
  | none => exact (kept fun e i d r => by cases look.symm.trans r.2.1).trans look
  | some x =>
    obtain ⟨i, d, tail⟩ := x
    dsimp only
    split
    next ends =>
      obtain ⟨rfl, id⟩ := ends
      obtain ⟨e, opened, id⟩ := Option.bind_eq_some_iff.1 id
      exact recorded e i d ⟨opened, look, id⟩
    next goesOn =>
      refine (kept fun e i' d' (r : RecordedBy s c e i' d') => goesOn ?_).trans look
      cases look.symm.trans r.2.1
      exact ⟨rfl, by rw [r.1]; exact r.2.2⟩

/-- With the roles held every recording becomes STORED with TRUNCATED. -/
theorem region_recording {i : Fin 16} {d : Descriptor} {tail : Option Nat} (role : s.capture.regions[i] = .recording d tail) :
    t.capture.regions[i] = .stored { d with truncated := true } := by
  have last : t.capture.regions[i] = t2.capture.regions[i] := by rw [h.capture]; rfl
  have found : s.capture.recording d.chan = some (i, d, tail) :=
    recording_eq_some (fun j early d' tail' role' chan' =>
      absurd (recording_of_count (roles d.chan).2 role rfl j d' tail' role' chan') (ne_of_lt early)) role rfl
  have left := h.recording_left roles d.chan
  rw [found] at left
  dsimp only at left
  rw [last]
  split at left
  next ends =>
    obtain ⟨rfl, id⟩ := ends
    obtain ⟨e, opened, id⟩ := Option.bind_eq_some_iff.1 id
    have first := h.closed.taken d.chan ((h.mem_order _).2 (by rw [opened]; rfl)) e i d ⟨opened, found, id⟩
    rw [h.tails.others i fun c _ d' tail' here => nomatch first.symm.trans (Capture.recording_some here).1]
    exact first
  next => exact h.tails.taken d.chan (Chan.mem_all _) i d tail left

end Roles

/-- No more than 13 notices are offered. -/
theorem notices_length : (all.flatMap (s.closeNotices .reset s.clock.now) ++
    Chan.all.flatMap (t1.capture.tailNotices s.clock.now) ++ s.cutNotices .reset s.clock.now).length ≤ 13 := by
  rw [List.length_append, List.length_append, (h.complete.flatMap_right _).length_eq]
  have cut := cutNotices_length_le s .reset s.clock.now
  have closes := closeNotices_length_le s .reset s.clock.now
  have tails := tailNotices_length_le t1.capture s.clock.now
  have c1 := closes .ch1
  have c2 := closes .ch2
  have c3 := closes .ch3
  have c4 := closes .ch4
  have t1 := tails .ch1
  have t2 := tails .ch2
  have t3 := tails .ch3
  have t4 := tails .ch4
  simp only [Chan.all, List.flatMap_cons, List.flatMap_nil, List.length_append, List.length_nil]
  omega

end ResetTaken

/-- The masks as the statement gives them. -/
theorem passes_eq (q : ReportQueue) (n : Notice) :
    q.passes n.chan n.body = (q.kindMask.getLsbD (n.body.kindCode - 1) && Chan.all.all fun c =>
      n.chan ≠ some c || q.chanMask.getLsbD (c.number - 1)) := by
  unfold ReportQueue.passes
  cases n.chan with
  | none => simp
  | some c => cases c <;> simp [Chan.all]

/-- The state in which the reset offers its events: event queue and live slot empty, and no message chosen (R171). -/
def State.quietened (s : State) : State := State.engaged { s with report := s.report.softReset }

/-- What the reset comes to, from its offers and the reset of the units. -/
theorem softReset_state {s t : State} (taken : t = s.quietened.resetOffers Config.pick) :
    (softResetRule Config.pick [] s).state =
      State.resetUnits { t with report := { t.report with sending := s.report.sending } } := by
  rw [softResetRule_state, taken]
  unfold State.withoutChoosing State.quietened
  rfl

/-- Settles O60: the closes, the ends of tails and the check's end, and the resets of the units. -/
theorem softResetRestartsMeasurement : Obligations.SoftResetRestartsMeasurement := by
  intro s tag rest begins now q ended
  obtain ⟨q', answered, run⟩ := exec_answer (i := .softReset tag []) (rule := softResetRule Config.pick) rfl begins rfl rfl
  have frame := softResetRule_frame (s.taken rest) Config.pick []
  obtain ⟨t1, t2, order, all, taken⟩ := resetOffers_taken (s.taken rest).quietened
  generalize offers : (s.taken rest).quietened.resetOffers Config.pick = t at taken
  have whole := softReset_state offers.symm
  have body : (softResetRule Config.pick [] (s.taken rest)).body = [0] := rfl
  generalize softResetRule Config.pick [] (s.taken rest) = a at answered run frame whole body
  rw [body] at answered
  have few := taken.notices_length
  have offered := taken.offered rfl (Nat.le_trans (Nat.add_le_add_left few 0) (by decide))
  obtain ⟨fifo, report⟩ := offered
  have events := answered_events answered
  have monitor : a.state.monitor = t.monitor.mapWith fun _ m => m.softReset := congrArg State.monitor whole
  have capture : a.state.capture = t.capture := by rw [whole]; rfl
  have check : a.state.check = t.check := by rw [whole]; rfl
  have range : a.state.range = t.range.mapWith fun _ r => r.restartWindow := congrArg State.range whole
  have unit : a.state.unit = t.unit.mapWith fun _ u => u.clearDetectors := congrArg State.unit whole
  have store : a.state.store = t.store.revert := congrArg State.store whole
  have kept : a.state.fifo = t.fifo := by rw [whole]; rfl
  have sent : a.state.report = { t.report with sending := (s.taken rest).report.sending } := congrArg State.report whole
  rw [report] at sent
  have told : q'.events = (all.flatMap _ ++ Chan.all.flatMap _ ++ _).filter _ := events.trans (congrArg ReportQueue.events sent)
  have stays (i : Fin 16) (other : ∀ d tail, s.capture.regions[i] ≠ .recording d tail) :
      a.state.capture.regions[i] = s.capture.regions[i] := by
    rw [capture]
    exact taken.region_other other
  refine ⟨_, run, ?_, ?_, fun c => ?_, fun idle => ?_, fun p running => ?_, fun c => ⟨fun other => ?_, fun p running same => ?_⟩,
    fun i => ⟨?_, ?_, ?_⟩, fun roles => ⟨fun i d tail role => ?_, ?_⟩⟩
  all_goals dsimp only
  · rw [store, kept, fifo, taken.store] at frame
    have captured : a.state.capture = { s.capture with
        regions := a.state.capture.regions, rings := .same ⟨0, 0, none⟩, closeBlock := .same false
        buffer := s.capture.buffer.filter fun e => Chan.all.all fun c => s.capture.regions[e.region] ≠ .ring c } := by
      rw [capture]
      exact taken.capture_eq
    have frame := congrArg (fun u : State => { u with report := q' }) frame
    dsimp only at frame
    conv_rhs at frame => rw [captured]
    exact frame
  · rw [events]
    rw [sent] at answered ⊢
    exact answered
  · rw [monitor, Quad.get_mapWith]
    exact taken.monitor_reset c
  · rw [check]
    exact (taken.cut.idle idle).1
  · rw [check]
    exact (taken.cut.running p running).1
  · rw [range, unit, Quad.get_mapWith, Quad.get_mapWith]
    by_cases running : ∃ p, Running s p
    · obtain ⟨p, running⟩ := running
      obtain ⟨-, thawed, cleared⟩ := taken.cut.running p running
      rw [thawed, cleared, Quad.get_set_other _ _ (Ne.symm (other p running)), Quad.get_set_other _ _ (Ne.symm (other p running))]
      exact ⟨rfl, rfl⟩
    · obtain ⟨-, same, same'⟩ := taken.cut.idle fun p found => running ⟨p, found⟩
      rw [same, same']
      exact ⟨rfl, rfl⟩
  · rw [range, unit, Quad.get_mapWith, Quad.get_mapWith]
    obtain ⟨-, thawed, cleared⟩ := taken.cut.running p running
    rw [thawed, cleared, ← same, Quad.get_set_same, Quad.get_set_same]
    exact ⟨rfl, rfl⟩
  · exact fun d role => (stays i fun _ _ r => nomatch role.symm.trans r).trans role
  · exact fun c role => (stays i fun _ _ r => nomatch role.symm.trans r).trans role
  · exact fun role => (stays i fun _ _ r => nomatch role.symm.trans r).trans role
  · rw [capture]
    exact taken.region_recording roles role
  · refine ⟨all, s.cutNotices .reset now, taken.complete, fun idle => cutNotices_idle idle .., fun p running =>
      cutNotices_running running .., told.trans ?_⟩
    simp only [← passes_eq]
    have tails : Chan.all.flatMap (t1.capture.tailNotices now) = Chan.all.flatMap fun c =>
        match s.capture.recording c with
        | none => []
        | some (i, d, tail) =>
          if tail = none ∧ (s.monitor.get c).episode.bind (·.captureId) = some d.id then []
          else [⟨some c, now, .captureStored i { d with truncated := true }⟩] := by
      congr 1
      funext c
      unfold Capture.tailNotices
      have left := taken.recording_left roles c
      change t1.capture.recording c = match s.capture.recording c with
        | none => none
        | some (i, d, tail) =>
          if tail = none ∧ (s.monitor.get c).episode.bind (·.captureId) = some d.id then none else some (i, d, tail) at left
      rw [left]
      cases s.capture.recording c with
      | none => rfl
      | some x =>
        obtain ⟨i, d, tail⟩ := x
        dsimp only
        by_cases ends : tail = none ∧ (s.monitor.get c).episode.bind (·.captureId) = some d.id
        · rw [if_pos ends, if_pos ends]
        · rw [if_neg ends, if_neg ends]
    exact congrArg (fun x => ((all.flatMap ((s.taken rest).quietened.closeNotices .reset now)) ++ x ++
      s.cutNotices .reset now).filter fun n => q.passes n.chan n.body) tails

end Sys2Proof.Machine
end

section
/-! PROOFS. The episode machine from block to block and its release (R107 to R111, R134), alone and among the steps still due. -/

namespace Sys2Proof.Machine

/-! ### The machine of a channel and the steps that leave it -/

/-- What the episode machine of a channel goes by: state, counter and episode, and its threshold and release time. -/
def MonitorChan.machine (m : MonitorChan) : EpisodePhase × Nat × Option Episode × Option EpisodeThreshold × Nat :=
  (m.phase, m.releaseCounter, m.episode, m.lmax, m.releaseTime)

theorem setMonitor_machine {s : State} {d : Chan} {m : MonitorChan} (same : m.machine = (s.monitor.get d).machine) (c : Chan) :
    ((s.setMonitor d m).monitor.get c).machine = (s.monitor.get c).machine := by
  rw [State.setMonitor_monitor, Quad.get_set]
  split
  next e => rw [same, e]
  next => rfl

theorem peakStep_machine (s : State) (d c : Chan) : ((s.peakStep d).monitor.get c).machine = (s.monitor.get c).machine := by
  unfold State.peakStep
  dsimp only
  repeat' split
  all_goals try rw [offer_monitor]
  all_goals exact setMonitor_machine (by rfl) c

theorem budgetStep_machine (s : State) (d c : Chan) :
    ((s.budgetStep d).monitor.get c).machine = (s.monitor.get c).machine := by
  unfold State.budgetStep
  split
  · rfl
  next b _ =>
    split
    · rw [spendStep_monitor, warnStep_monitor, Quad.set_set, Quad.get_set_same, Quad.get_set]
      split
      next e => rw [e]; rfl
      next => rfl
    · rfl

theorem episodeStep_other (s : State) {c d : Chan} (apart : c ≠ d) :
    (s.episodeStep d).monitor.get c = s.monitor.get c := by
  unfold State.episodeStep
  split
  · dsimp only
    split
    · rw [closeEpisode_monitor, State.setMonitor_monitor, Quad.set_set, Quad.get_set_other _ _ apart]
    · exact Quad.get_set_other _ _ apart
  · split
    · split
      · rw [(openEpisode_opens rfl).2.1, Quad.get_set_other _ _ apart]
      · rfl
    · rfl

/-- A step that is neither the channel's episode step nor the boundary leaves its machine. -/
theorem runTask_machine {t : Task} {s : State} {c : Chan} (notEpisode : t ≠ .episode c) (notBoundary : t ≠ .boundary) :
    ((runTask Config.pick t s).monitor.get c).machine = (s.monitor.get c).machine := by
  cases t with
  | peak d => exact peakStep_machine s d c
  | budget d => exact budgetStep_machine s d c
  | episode d => exact congrArg _ (episodeStep_other s fun e => notEpisode (e ▸ rfl))
  | boundary => exact absurd rfl notBoundary
  | _ => simp [runTask]

/-- With no boundary at the block end its step does nothing (R73, R83, R89). -/
theorem boundaryStep_of_none {s : State} (none : NoBoundary s) (pick : Nat → Nat) : s.boundaryStep pick = s := by
  obtain ⟨load, day, aligned, schedule, restart, opening⟩ := none
  have noCause : s.closeCause = Option.none := by
    have notAligned : s.atAligned = false := by
      unfold State.atAligned
      cases changed : s.handed.report.secondChanged with
      | false => rfl
      | true => exact decide_eq_false fun at' => aligned ⟨changed, at'⟩
    unfold State.closeCause
    rw [load, day, notAligned, schedule, restart]
    rfl
  have noOpening : s.openingDue = false := by
    unfold State.openingDue
    rw [load, opening]
    rfl
  unfold State.boundaryStep
  rw [noCause, noOpening, load]
  cases s.interval <;> rfl

/-- What the boundary goes by besides the report: the active copy, and the pending restart and opening. -/
def State.boundaryFlags (s : State) : Settings × Bool × Bool := (s.active, s.acc.restartPending, s.acc.openingPending)

theorem runTask_boundaryFlags {t : Task} {s : State} (notBoundary : t ≠ .boundary) :
    (runTask Config.pick t s).boundaryFlags = s.boundaryFlags := by
  unfold State.boundaryFlags
  cases t with
  | boundary => exact absurd rfl notBoundary
  | engine =>
    rw [show (runTask Config.pick .engine s).active = s.active from engineStep_active s]
    simp [runTask]
  | classify => rfl
  | _ => simp [runTask]

theorem runTask_report {t : Task} {s : State} (notClock : t ≠ .clock) :
    (runTask Config.pick t s).handed.report = s.handed.report := by
  cases t with
  | clock => exact absurd rfl notClock
  | classify => rfl
  | weigh c => rfl
  | _ => simp [runTask]

theorem runTask_classes {t : Task} {s : State} (notClassify : t ≠ .classify) :
    (runTask Config.pick t s).handed.classes = s.handed.classes := by
  cases t with
  | classify => exact absurd rfl notClassify
  | clock =>
    change (State.clockStep s).handed.classes = _
    unfold State.clockStep
    split <;> rfl
  | weigh c => rfl
  | _ => simp [runTask]

/-! ### The machine behind a block (R108, R109, R111) -/

/-- The machine of `m` went on with a block to that of `m'`. -/
def EpisodeMoved (m m' : MonitorChan) (k : Int) (cls : BlockClass) (x : BlockResults) (at' : Stamp) : Prop :=
  let f := level k x.yF 48
  let unconsidered : Prop := cls = .excluded ∨ x.fSettled = false ∨ m.lmax = none
  let gets (phase : EpisodePhase) (counter : Nat) (e : Option Episode) : Prop :=
    (m'.phase, m'.releaseCounter, m'.episode) = (phase, counter, e)
  (∀ e, m.episode = some e →
    let e' : Episode :=
      { e with duration := min 4294967295 (e.duration + 1), q := min (48000 * 2 ^ 46) (e.q + x.energy) }
    let e'' : Episode := if e.maxLevel < f then { e' with maxLevel := f, maxTime := at' } else e'
    (unconsidered → gets m.phase m.releaseCounter (some e')) ∧
    ∀ th, m.lmax = some th → ¬unconsidered →
      (m.phase = .opened →
        (th.yr < x.yF → gets .opened m.releaseCounter (some e'')) ∧
        (x.yF ≤ th.yr → 1 < m.releaseTime → gets .releasing 1 (some e'')) ∧
        (x.yF ≤ th.yr → m.releaseTime ≤ 1 → gets .idle 0 none)) ∧
      (m.phase = .releasing →
        (th.yr < x.yF → gets .opened 0 (some e'')) ∧
        (x.yF ≤ th.yr → m.releaseCounter + 1 < m.releaseTime → gets .releasing (m.releaseCounter + 1) (some e'')) ∧
        (x.yF ≤ th.yr → m.releaseTime ≤ m.releaseCounter + 1 → gets .idle 0 none))) ∧
  (m.episode = none →
    (unconsidered ∨ (∀ th, m.lmax = some th → x.yF ≤ th.y) → gets m.phase m.releaseCounter none) ∧
    (∀ th, m.lmax = some th → ¬unconsidered → th.y < x.yF →
      ∃ n id, gets .opened m.releaseCounter (some ⟨n, at', 1, x.energy, f, at', id⟩)))

theorem EpisodeMoved.congr {m m' m1 m1' : MonitorChan} {k : Int} {cls : BlockClass} {x : BlockResults} {at' : Stamp}
    (h : EpisodeMoved m m' k cls x at') (before : m1.machine = m.machine) (after : m1'.machine = m'.machine) :
    EpisodeMoved m1 m1' k cls x at' := by
  simp only [MonitorChan.machine, Prod.mk.injEq] at before after
  obtain ⟨phase, counter, episode, lmax, time⟩ := before
  obtain ⟨phase', counter', episode', -, -⟩ := after
  unfold EpisodeMoved at *
  rw [phase, counter, episode, lmax, time, phase', counter', episode']
  exact h

section MoveOn
variable {m : MonitorChan} {yF yr : Nat}

theorem moveOn_opened_low (phase : m.phase = .opened) (low : yF ≤ yr) :
    m.moveOn yF yr = { m with phase := .releasing, releaseCounter := 1 } := by
  unfold MonitorChan.moveOn
  rw [phase]
  exact if_pos low

theorem moveOn_opened_high (phase : m.phase = .opened) (high : yr < yF) : m.moveOn yF yr = m := by
  unfold MonitorChan.moveOn
  rw [phase]
  exact if_neg (Nat.not_le.2 high)

theorem moveOn_releasing_low (phase : m.phase = .releasing) (low : yF ≤ yr) :
    m.moveOn yF yr = { m with releaseCounter := m.releaseCounter + 1 } := by
  unfold MonitorChan.moveOn
  rw [phase]
  exact if_pos low

theorem moveOn_releasing_high (phase : m.phase = .releasing) (high : yr < yF) :
    m.moveOn yF yr = { m with phase := .opened, releaseCounter := 0 } := by
  unfold MonitorChan.moveOn
  rw [phase]
  exact if_neg (Nat.not_le.2 high)

/-- When the move of a considered block releases (R109). -/
theorem moveOn_released_iff : (m.moveOn yF yr).released = true ↔ yF ≤ yr ∧
    (m.phase = .releasing ∧ m.releaseTime ≤ m.releaseCounter + 1 ∨ m.phase = .opened ∧ m.releaseTime ≤ 1) := by
  have released (x : MonitorChan) : x.released = true ↔ x.phase = .releasing ∧ x.releaseTime ≤ x.releaseCounter := by
    unfold MonitorChan.released
    rw [Bool.and_eq_true, decide_eq_true_eq, decide_eq_true_eq]
  rw [released]
  cases phase : m.phase with
  | idle =>
    have stays : m.moveOn yF yr = m := by unfold MonitorChan.moveOn; rw [phase]
    rw [stays, phase]
    simp
  | opened =>
    by_cases low : yF ≤ yr
    · rw [moveOn_opened_low phase low]
      simp [low]
    · rw [moveOn_opened_high phase (Nat.not_le.1 low), phase]
      simp [low]
  | releasing =>
    by_cases low : yF ≤ yr
    · rw [moveOn_releasing_low phase low]
      simp [low, phase]
    · rw [moveOn_releasing_high phase (Nat.not_le.1 low)]
      simp [low]

end MoveOn

section Step
variable {s : State} {c : Chan}

theorem considered_iff : s.considered c = true ↔
    ¬(s.handed.classes.get c = .excluded ∨ (s.results c).fSettled = false ∨ (s.monitor.get c).lmax = none) := by
  unfold State.considered
  rw [Bool.and_eq_true, Bool.and_eq_true, included_iff, Option.isSome_iff_ne_none]
  simp only [not_or, Bool.not_eq_false, ne_eq, and_assoc]

/-- The episode after a considered block (R111). -/
theorem addBlock_considered (e : Episode) (energy : Nat) (f : Int) (now : Stamp) :
    e.addBlock energy true f now =
      if e.maxLevel < f then
        { e with
          duration := min 4294967295 (e.duration + 1), q := min (48000 * 2 ^ 46) (e.q + energy), maxLevel := f, maxTime := now }
      else { e with duration := min 4294967295 (e.duration + 1), q := min (48000 * 2 ^ 46) (e.q + energy) } := by
  unfold Episode.addBlock
  dsimp only
  by_cases higher : e.maxLevel < f
  · rw [if_pos ⟨rfl, higher⟩, if_pos higher]
    rfl
  · rw [if_neg fun h => higher h.2, if_neg higher]
    rfl

theorem addBlock_unconsidered (e : Episode) (energy : Nat) (f : Int) (now : Stamp) :
    e.addBlock energy false f now =
      { e with duration := min 4294967295 (e.duration + 1), q := min (48000 * 2 ^ 46) (e.q + energy) } := by
  unfold Episode.addBlock
  dsimp only
  rw [if_neg fun h => Bool.noConfusion h.1]
  rfl

/-- With an episode open and no release the step leaves the machine of `afterBlock` (R109, R111). -/
theorem episodeStep_goesOn {e : Episode} (opened : (s.monitor.get c).episode = some e) (stays : s.episodeReleases c = false) :
    (s.episodeStep c).monitor.get c = s.afterBlock c e := by
  unfold State.episodeStep
  rw [opened]
  dsimp only
  rw [if_neg (Bool.eq_false_iff.1 stays)]
  exact Quad.get_set_same ..

theorem afterBlock_episode (e : Episode) : (s.afterBlock c e).episode =
    some (e.addBlock (s.results c).energy (s.considered c) (s.blockFLevel c) s.handed.report.ended) := by
  unfold State.afterBlock MonitorChan.moveOn
  dsimp only
  repeat' split
  all_goals rfl

theorem episodeStep_releases {e : Episode} (opened : (s.monitor.get c).episode = some e) (releases : s.episodeReleases c = true) :
    s.episodeStep c = (s.setMonitor c (s.afterBlock c e)).closeEpisode c .released s.handed.report.ended := by
  unfold State.episodeStep
  rw [opened]
  dsimp only
  rw [if_pos releases]

theorem episodeStep_closes {e : Episode} (opened : (s.monitor.get c).episode = some e) (releases : s.episodeReleases c = true) :
    (s.episodeStep c).monitor.get c =
      { s.afterBlock c e with phase := .idle, releaseCounter := 0, episode := none } := by
  rw [episodeStep_releases opened releases, closeEpisode_monitor, Quad.get_set_same, State.setMonitor_monitor, Quad.get_set_same]
  unfold MonitorChan.closed
  rw [afterBlock_episode]

theorem afterBlock_considered {e : Episode} {th : EpisodeThreshold} (lmax : (s.monitor.get c).lmax = some th)
    (considered : s.considered c = true) :
    s.afterBlock c e = MonitorChan.moveOn (s.results c).yF th.yr { s.monitor.get c with
      episode := some (e.addBlock (s.results c).energy true (s.blockFLevel c) s.handed.report.ended) } := by
  unfold State.afterBlock
  rw [considered]
  dsimp only
  rw [lmax]
  exact if_pos rfl

theorem afterBlock_unconsidered {e : Episode} (unconsidered : s.considered c = false) :
    s.afterBlock c e = { s.monitor.get c with
      episode := some (e.addBlock (s.results c).energy false (s.blockFLevel c) s.handed.report.ended) } := by
  unfold State.afterBlock
  rw [unconsidered]
  dsimp only
  split
  · exact if_neg Bool.noConfusion
  · rfl

/-- Whether the block releases the episode, by the machine and the block (R109). -/
theorem episodeReleases_iff {e : Episode} {th : EpisodeThreshold} (opened : (s.monitor.get c).episode = some e)
    (lmax : (s.monitor.get c).lmax = some th) :
    s.episodeReleases c = true ↔ s.considered c = true ∧ (s.results c).yF ≤ th.yr ∧
      ((s.monitor.get c).phase = .releasing ∧ (s.monitor.get c).releaseTime ≤ (s.monitor.get c).releaseCounter + 1 ∨
        (s.monitor.get c).phase = .opened ∧ (s.monitor.get c).releaseTime ≤ 1) := by
  unfold State.episodeReleases
  rw [opened]
  dsimp only
  rw [Bool.and_eq_true]
  refine and_congr_right fun considered => ?_
  rw [afterBlock_considered lmax considered]
  exact moveOn_released_iff

/-- The episode step moves the machine on (R108 to R111). -/
theorem episodeStep_moved (s : State) (c : Chan) :
    EpisodeMoved (s.monitor.get c) ((s.episodeStep c).monitor.get c) (s.k c) (s.handed.classes.get c) (s.results c)
      s.handed.report.ended := by
  refine ⟨fun e opened => ⟨fun unconsidered => ?_, fun th lmax considered => ?_⟩, fun idle => ⟨fun quiet => ?_,
    fun th lmax considered above => ?_⟩⟩
  · have unconsidered : s.considered c = false := Bool.eq_false_iff.2 fun h => considered_iff.1 h unconsidered
    have stays : s.episodeReleases c = false := by
      unfold State.episodeReleases
      rw [opened, unconsidered]
      rfl
    rw [episodeStep_goesOn opened stays, afterBlock_unconsidered unconsidered, addBlock_unconsidered]
  · have considered := considered_iff.2 considered
    have moves := afterBlock_considered (e := e) lmax considered
    rw [addBlock_considered] at moves
    obtain ⟨w, moves, phase', counter', episode'⟩ : ∃ w : MonitorChan, s.afterBlock c e = w.moveOn (s.results c).yF th.yr ∧
        w.phase = (s.monitor.get c).phase ∧ w.releaseCounter = (s.monitor.get c).releaseCounter ∧ w.episode = some _ :=
      ⟨_, moves, rfl, rfl, rfl⟩
    have stays (h : ¬((s.results c).yF ≤ th.yr ∧
        ((s.monitor.get c).phase = .releasing ∧ (s.monitor.get c).releaseTime ≤ (s.monitor.get c).releaseCounter + 1 ∨
          (s.monitor.get c).phase = .opened ∧ (s.monitor.get c).releaseTime ≤ 1))) :
        (s.episodeStep c).monitor.get c = _ := (episodeStep_goesOn opened (Bool.eq_false_iff.2 fun releases =>
          h ((episodeReleases_iff opened lmax).1 releases).2)).trans moves
    have closes (low : (s.results c).yF ≤ th.yr)
        (h : (s.monitor.get c).phase = .releasing ∧ (s.monitor.get c).releaseTime ≤ (s.monitor.get c).releaseCounter + 1 ∨
          (s.monitor.get c).phase = .opened ∧ (s.monitor.get c).releaseTime ≤ 1) :=
      episodeStep_closes opened ((episodeReleases_iff opened lmax).2 ⟨considered, low, h⟩)
    refine ⟨fun phase => ⟨fun high => ?_, fun low long => ?_, fun low short => ?_⟩,
      fun phase => ⟨fun high => ?_, fun low long => ?_, fun low short => ?_⟩⟩
    · rw [stays fun h => absurd h.1 (Nat.not_le.2 high), moveOn_opened_high (phase'.trans phase) high, phase', phase, counter',
        episode']
      rfl
    · have early : ¬((s.results c).yF ≤ th.yr ∧
          ((s.monitor.get c).phase = .releasing ∧ (s.monitor.get c).releaseTime ≤ (s.monitor.get c).releaseCounter + 1 ∨
            (s.monitor.get c).phase = .opened ∧ (s.monitor.get c).releaseTime ≤ 1)) := by
        rintro ⟨-, ⟨other, -⟩ | ⟨-, late⟩⟩
        · exact nomatch phase.symm.trans other
        · omega
      rw [stays early, moveOn_opened_low (phase'.trans phase) low]
      dsimp only
      rw [episode']
      rfl
    · rw [closes low (.inr ⟨phase, short⟩)]
    · rw [stays fun h => absurd h.1 (Nat.not_le.2 high), moveOn_releasing_high (phase'.trans phase) high]
      dsimp only
      rw [episode']
      rfl
    · have early : ¬((s.results c).yF ≤ th.yr ∧
          ((s.monitor.get c).phase = .releasing ∧ (s.monitor.get c).releaseTime ≤ (s.monitor.get c).releaseCounter + 1 ∨
            (s.monitor.get c).phase = .opened ∧ (s.monitor.get c).releaseTime ≤ 1)) := by
        rintro ⟨-, ⟨-, late⟩ | ⟨other, -⟩⟩
        · omega
        · exact nomatch phase.symm.trans other
      rw [stays early, moveOn_releasing_low (phase'.trans phase) low]
      dsimp only
      rw [phase', phase, counter', episode']
      rfl
    · rw [closes low (.inl ⟨phase, short⟩)]
  · have stays : s.episodeStep c = s := by
      unfold State.episodeStep
      rw [idle]
      dsimp only
      split
      next th lmax =>
        refine if_neg fun opens => ?_
        obtain unconsidered | low := quiet
        · exact considered_iff.1 opens.1 unconsidered
        · exact absurd opens.2 (Nat.not_lt.2 (low th lmax))
      next => rfl
    rw [stays, idle]
  · have included : s.handed.classes.get c ≠ .excluded := fun h => considered (.inl h)
    have settled : (s.handed.results.get c).fSettled = true := Bool.not_eq_false _ ▸ fun h => considered (.inr (.inl h))
    rw [episodeStep_opens idle lmax included settled above, (openEpisode_opens rfl).2.1, Quad.get_set_same]
    exact ⟨_, _, rfl⟩

end Step

/-! ### The episode step among the steps still due -/

/-- The boundary, one of the steps `l` of the block end, is still to be taken. -/
def BoundaryWaits (l left : List Task) : Prop := .boundary ∈ l → .boundary ∈ left

/-- A channel's episode step among the steps still due, `l` of them at the start. -/
structure EpisodeDue (s : State) (c : Chan) (l left : List Task) (u : State) : Prop where
  nodup : left.Nodup
  inside : left ⊆ l
  still : BoundaryWaits l left → u.boundaryFlags = s.boundaryFlags
  waiting : .episode c ∈ left → (u.monitor.get c).machine = (s.monitor.get c).machine ∧ BoundaryWaits l left
  taken : .episode c ∉ left → (.clock ∉ left ∧ .weigh c ∉ left ∧ .classify ∉ left) ∧
    (BoundaryWaits l left ∨ NoBoundary { s with handed := u.handed } →
      EpisodeMoved (s.monitor.get c) (u.monitor.get c) (s.k c) (u.handed.classes.get c) (u.results c) u.handed.report.ended)

section Due
variable {s u : State} {c : Chan} {l : List Task}

theorem noBoundary_congr {v : State} (flags : u.boundaryFlags = s.boundaryFlags) (report : v.handed.report = u.handed.report)
    (none : NoBoundary { s with handed := v.handed }) : NoBoundary u := by
  unfold State.boundaryFlags at flags
  simp only [State.active_eq, Prod.mk.injEq] at flags
  obtain ⟨active, restart, opening⟩ := flags
  unfold NoBoundary at *
  dsimp only at none
  rw [report] at none
  rw [active, restart, opening]
  exact none

theorem episodeDue_taskKept : TaskKept (EpisodeDue s c l) := by
  intro u left t due mem first h
  have nodup : (left.erase t).Nodup := h.nodup.erase t
  have inside : left.erase t ⊆ l := fun v hv => h.inside (List.mem_of_mem_erase hv)
  have gone : t ∉ left.erase t := h.nodup.not_mem_erase
  have later {v : Task} (apart : v ≠ t) : v ∈ left.erase t ↔ v ∈ left := List.mem_erase_of_ne apart
  have out {v : Task} (none : v ∉ left) : v ∉ left.erase t := fun hv => none (List.mem_of_mem_erase hv)
  by_cases boundary : t = .boundary
  · subst boundary
    have done : .episode c ∉ left := fun waits => Bool.noConfusion ((first _ waits).symm.trans rfl)
    have past : ¬BoundaryWaits l (left.erase .boundary) := fun waits => gone (waits (h.inside mem))
    obtain ⟨⟨clock, weigh, classify⟩, moved⟩ := h.taken done
    have handed : (runTask Config.pick .boundary { u with blockWork := some (left.erase .boundary) }).handed = u.handed :=
      boundaryStep_handed ..
    refine ⟨nodup, inside, fun waits => absurd waits past, fun waits => absurd waits (out done),
      fun _ => ⟨⟨out clock, out weigh, out classify⟩, fun none => ?_⟩⟩
    have none := none.resolve_left past
    rw [handed] at none
    have stays : runTask Config.pick .boundary { u with blockWork := some (left.erase .boundary) } = _ :=
      boundaryStep_of_none (s := { u with blockWork := some (left.erase .boundary) })
        (noBoundary_congr (s := s) (v := u) (h.still fun _ => mem) rfl none) Config.pick
    rw [stays]
    exact moved (.inl fun _ => mem)
  · have waits : BoundaryWaits l (left.erase t) ↔ BoundaryWaits l left := by
      unfold BoundaryWaits
      rw [later (Ne.symm boundary)]
    have flags := runTask_boundaryFlags (s := { u with blockWork := some (left.erase t) }) boundary
    by_cases episode : t = .episode c
    · subst episode
      obtain ⟨machine, before⟩ := h.waiting mem
      have past (v : Task) (early : v.before (.episode c) = true) : v ∉ left.erase (.episode c) := fun hv =>
        Bool.noConfusion (early.symm.trans (first v (List.mem_of_mem_erase hv)))
      refine ⟨nodup, inside, fun w => flags.trans (h.still (waits.1 w)), fun again => absurd again gone,
        fun _ => ⟨⟨past _ rfl, past _ rfl, past _ rfl⟩, fun _ => ?_⟩⟩
      have k : u.k c = s.k c := by
        have active := congrArg Prod.fst (h.still before)
        exact congrArg (fun a : Settings => (a.chan.get c).k) active
      have moved := episodeStep_moved { u with blockWork := some (left.erase (.episode c)) } c
      have moved := moved.congr machine.symm rfl
      rw [show State.k { u with blockWork := some (left.erase (.episode c)) } c = s.k c from k] at moved
      have handed : (runTask Config.pick (.episode c) { u with blockWork := some (left.erase (.episode c)) }).handed = u.handed :=
        episodeStep_handed ..
      unfold State.results at moved ⊢
      rw [handed]
      exact moved
    · have machine := runTask_machine (s := { u with blockWork := some (left.erase t) }) episode boundary
      refine ⟨nodup, inside, fun w => flags.trans (h.still (waits.1 w)), fun due => ?_, fun done => ?_⟩
      · obtain ⟨same, before⟩ := h.waiting ((later (Ne.symm episode)).1 due)
        exact ⟨machine.trans same, waits.2 before⟩
      · obtain ⟨⟨clock, weigh, classify⟩, moved⟩ := h.taken fun due => done ((later (Ne.symm episode)).2 due)
        have report := runTask_report (s := { u with blockWork := some (left.erase t) }) (t := t) fun e => clock (e ▸ mem)
        have classes := runTask_classes (s := { u with blockWork := some (left.erase t) }) (t := t) fun e => classify (e ▸ mem)
        have results := runTask_results (s := { u with blockWork := some (left.erase t) }) (t := t) (c := c)
          fun e => weigh (e ▸ mem)
        refine ⟨⟨out clock, out weigh, out classify⟩, fun none => ?_⟩
        have moved := (moved (none.imp waits.1 fun n => ?_)).congr rfl machine
        · rw [report, classes, results]
          exact moved
        · unfold NoBoundary at n ⊢
          dsimp only at n ⊢
          rw [report] at n
          exact n

end Due

/-! ### A release with the channel's capture step still due (R110, R134) -/

/-- The recording of an episode that closes at the block end with its channel's capture step still due begins its tail, with
the block as close block. -/
theorem closeEpisode_late {t : State} {c : Chan} {reason : CloseReason} {stamp : Stamp} {e : Episode} {i : Fin 16}
    {d : Descriptor} (atEnd : reason.atBlockEnd = true) (due : t.captureStepDue c = true) (recorded : RecordedBy t c e i d) :
    (t.closeEpisode c reason stamp).capture = { t.capture with
      regions := t.capture.regions.set i (.recording d (some t.capture.tailLength))
      closeBlock := t.capture.closeBlock.set c true } := by
  obtain ⟨opened, found, id⟩ := recorded
  obtain ⟨u, whole, capture, work, -⟩ := closeEpisode_open (reason := reason) (stamp := stamp) opened
  have notReset : reason ≠ .reset := fun h => by rw [h] at atEnd; cases atEnd
  have due : u.captureStepDue c = true := by
    unfold State.captureStepDue at due ⊢
    rw [work]
    exact due
  have close : (u.closeCapture c (some d.id) reason stamp).capture = { u.capture with
      regions := u.capture.regions.set i (.recording d (some u.capture.tailLength))
      closeBlock := u.capture.closeBlock.set c true } := by
    unfold State.closeCapture
    rw [capture, found]
    dsimp only
    rw [if_neg (not_not_intro rfl), if_neg notReset, if_pos ⟨atEnd, due⟩]
    rw [← capture]
    rfl
  rw [whole, id, ← capture]
  exact close

/-- Such a close offers EPISODE_CLOSED alone. -/
theorem closeEpisode_late_offered {t : State} {c : Chan} {reason : CloseReason} {stamp : Stamp} {e : Episode}
    (atEnd : reason.atBlockEnd = true) (due : t.captureStepDue c = true) (opened : (t.monitor.get c).episode = some e) :
    Offered t (t.closeEpisode c reason stamp) [⟨some c, stamp, .episodeClosed (e.complete c (t.k c) stamp reason)⟩] := by
  obtain ⟨u, whole, capture, work, said⟩ := closeEpisode_open (reason := reason) (stamp := stamp) opened
  have notReset : reason ≠ .reset := fun h => by rw [h] at atEnd; cases atEnd
  have due : u.captureStepDue c = true := by
    unfold State.captureStepDue at due ⊢
    rw [work]
    exact due
  have quiet : (u.closeCapture c e.captureId reason stamp).report = u.report ∧
      (u.closeCapture c e.captureId reason stamp).fifo = u.fifo := by
    unfold State.closeCapture
    split
    · split
      · exact ⟨rfl, rfl⟩
      · rw [if_pos ⟨atEnd, due⟩]
        exact ⟨rfl, rfl⟩
    · exact ⟨rfl, rfl⟩
  rw [whole]
  exact said.after quiet.1 quiet.2

/-- A machine that moved on and returned to IDLE. -/
theorem moveOn_toIdle (m : MonitorChan) (yF yr : Nat) (e : Option Episode) :
    (MonitorChan.moveOn yF yr { m with episode := e }).toIdle =
      { m with phase := .idle, releaseCounter := 0, episode := none } := by
  unfold MonitorChan.moveOn MonitorChan.toIdle
  dsimp only
  repeat' split
  all_goals rfl

/-- The record of an episode that the block in progress, which counts, releases (R110, R111). -/
theorem addBlock_complete (e : Episode) (c : Chan) (k : Int) (energy : Nat) (f : Int) (now : Stamp) (reason : CloseReason) :
    (e.addBlock energy true f now).complete c k now reason =
      ⟨e.number, c, e.start, now, min 4294967295 (e.duration + 1), max e.maxLevel f,
        if e.maxLevel < f then now else e.maxTime, level k (min (48000 * 2 ^ 46) (e.q + energy)) 48000, e.captureId, reason⟩ := by
  rw [addBlock_considered]
  by_cases higher : e.maxLevel < f
  · rw [if_pos higher, if_pos higher, max_eq_right higher.le]
    rfl
  · rw [if_neg higher, if_neg higher, max_eq_left (not_lt.1 higher)]
    rfl

theorem addBlock_captureId (e : Episode) (energy : Nat) (f : Int) (now : Stamp) :
    (e.addBlock energy true f now).captureId = e.captureId := by
  rw [addBlock_considered]
  split <;> rfl

/-- Settles O39: the rows by the step taken alone, and the machine among the steps of the block end. -/
theorem episodeReleasedCloses : Obligations.EpisodeReleasedCloses := by
  refine ⟨fun s c l e th => ?_, fun s c l due nodup mem => ?_⟩
  · intro m x at' k f ready opened lmax
    have row := takeUpTo_of_ready ready fun s => s.episodeReleases c
    have releases := episodeReleases_iff (s := s) opened lmax
    have stays (h : ¬(s.considered c = true ∧ x.yF ≤ th.yr ∧
        (m.phase = .releasing ∧ m.releaseTime ≤ m.releaseCounter + 1 ∨ m.phase = .opened ∧ m.releaseTime ≤ 1))) :
        exec (.episodeReleased c) s = .next s :=
      congrArg Host.Outcome.next (row.trans (if_neg fun yes => h (releases.1 yes)))
    refine ⟨fun blocked => stays ?_, fun phase early => stays ?_, fun included settled low late captureDue room => ?_⟩
    · rintro ⟨considered, low, -⟩
      obtain excluded | unsettled | high := blocked
      · exact considered_iff.1 considered (.inl excluded)
      · exact considered_iff.1 considered (.inr (.inl unsettled))
      · exact absurd low (Nat.not_le.2 high)
    · rintro ⟨-, -, ⟨-, late⟩ | ⟨other, -⟩⟩
      · exact absurd late (Nat.not_le.2 early)
      · exact nomatch phase.symm.trans other
    · have considered : s.considered c = true := considered_iff.2 fun h => by
        obtain excluded | unsettled | none := h
        · exact included excluded
        · exact Bool.noConfusion (settled.symm.trans unsettled)
        · exact nomatch lmax.symm.trans none
      have yes := releases.2 ⟨considered, low, late⟩
      let v : State := s.withDue (l.erase (.episode c))
      have step := episodeStep_releases (s := v) opened yes
      have run : exec (.episodeReleased c) s = .next (v.episodeStep c) :=
        congrArg Host.Outcome.next (row.trans (if_pos yes))
      rw [step] at run
      have due : (v.setMonitor c (v.afterBlock c e)).captureStepDue c = true :=
        List.contains_iff_mem.2 ((List.mem_erase_of_ne (by simp)).2 captureDue)
      have now : ((v.setMonitor c (v.afterBlock c e)).monitor.get c) = v.afterBlock c e := Quad.get_set_same ..
      have moved := afterBlock_considered (s := v) (e := e) lmax considered
      have open' : ((v.setMonitor c (v.afterBlock c e)).monitor.get c).episode = some (e.addBlock x.energy true f at') := by
        rw [now, afterBlock_episode, show v.considered c = true from considered]
        rfl
      refine ⟨_, run, closeEpisode_blockWork .., ?_, ?_, fun i d found id => ?_⟩
      · rw [closeEpisode_monitor, now, State.setMonitor_monitor, Quad.set_set]
        unfold MonitorChan.closed
        rw [now] at open'
        rw [open']
        exact congrArg (s.monitor.set c) ((congrArg MonitorChan.toIdle moved).trans (moveOn_toIdle ..))
      · have offered := closeEpisode_late_offered (reason := .released) (stamp := at') rfl due open'
        rw [addBlock_complete] at offered
        exact (offered.open_.events room).2
      · have capture := closeEpisode_late (reason := .released) (stamp := v.handed.report.ended) rfl due
          ⟨open', found, (addBlock_captureId ..).trans id⟩
        rw [capture]
        exact ⟨rfl, Quad.get_set_same ..⟩
  · obtain ⟨u, -, kept, same⟩ := finishBlock_due (episodeDue_taskKept (s := s) (c := c) (l := l)) s l due
      ⟨nodup, fun _ h => h, fun _ => rfl, fun _ => ⟨rfl, fun h => h⟩, fun gone => absurd mem gone⟩
    refine ⟨_, exec_blockEnd same, fun none => ?_⟩
    obtain ⟨-, moved⟩ := kept.taken List.not_mem_nil
    refine moved ?_
    by_cases boundary : .boundary ∈ l
    · exact .inr (none boundary)
    · exact .inl fun h => absurd h boundary

end Sys2Proof.Machine
end

section
/-! PROOFS. The commands for captures, the lending of the memory and the completions of the memory port (R138 to R145). -/

namespace Sys2Proof.Machine

/-! ### The arbiter -/

theorem arbitrate_keeps_inFlight {k : Capture} (h : k.inFlight.isSome = true) : k.arbitrate = k := by
  obtain ⟨op, h⟩ := Option.isSome_iff_exists.1 h
  unfold Capture.arbitrate
  rw [h]

theorem arbitrate_of_lent {k : Capture} (h : k.lend = .lent) : k.arbitrate = k := by
  unfold Capture.arbitrate
  rw [h]
  cases k.inFlight <;> rfl

section

variable {buffer rest : List BufferEntry} {job : Option ReadJob} {op : Option MemoryOp}

theorem next_of_empty {j : ReadJob} (next : NextOperation buffer job op rest) (empty : buffer = []) (reads : job = some j)
    (left : j.got.length < j.count) : op = some (.read j.region ((j.start + (j.first + j.got.length)) % 10000)) :=
  (next.2.1 _ _ ⟨j, reads, left, rfl, rfl, by simp [empty]⟩ (by simp [empty])).1

theorem next_of_write {e : BufferEntry} {es : List BufferEntry} (next : NextOperation buffer job op rest)
    (entries : buffer = e :: es) (idle : job = none) : op = some (.write e) ∧ rest = es :=
  next.1 e es entries (.inr fun _ _ ⟨_, reads, _⟩ => by rw [idle] at reads; cases reads)

theorem next_of_nothing (next : NextOperation buffer job op rest) (empty : buffer = []) (idle : job = none) :
    op = none ∧ rest = [] :=
  next.2.2 empty fun _ _ ⟨_, reads, _⟩ => by rw [idle] at reads; cases reads

end

/-! ### Captures by their id -/

theorem findId_eq_some {k : Capture} {id : Nat} {i : Fin 16} {d : Descriptor} (role : k.regions[i].descriptor = some d)
    (same : d.id = id) (only : ∀ (j : Fin 16) (d : Descriptor), k.regions[j].descriptor = some d → d.id = id → j = i) :
    k.findId id = some i := by
  unfold Capture.findId
  refine find_unique ?_ fun j found => ?_
  · rw [role]
    exact decide_eq_true same
  · cases held : k.regions[j].descriptor with
    | none => rw [held] at found; cases found
    | some d' =>
      rw [held] at found
      exact only j d' held (of_decide_eq_true found)

theorem findId_eq_none {k : Capture} {id : Nat}
    (no : ∀ (i : Fin 16) (d : Descriptor), k.regions[i].descriptor = some d → d.id ≠ id) : k.findId id = none := by
  unfold Capture.findId
  refine find_eq_none fun j => ?_
  cases held : k.regions[j].descriptor with
  | none => rfl
  | some d => exact decide_eq_false (no j d held)

/-! ### READ_CAPTURE (R141) -/

theorem exec_readCapture {s : State} {tag : Byte} {body : List Byte} {rest : List Command}
    (begins : Begins s ⟨0x18, tag, body⟩ rest) : exec (.readCapture tag body) s = .next ((s.taken rest).beginRead tag body) := by
  refine (show _ = execReadCapture tag body s from rfl).trans ?_
  unfold execReadCapture
  rw [settle_of_not_begun _ s begins.1]
  dsimp only
  rw [begin_of_begins begins]

theorem exec_readCapture_refused {s : State} {tag : Byte} {body : List Byte} {rest : List Command} {status : Status}
    (begins : Begins s ⟨0x18, tag, body⟩ rest) (length : commandLength 0x18 = some body.length)
    (refused : s.capture.readJob tag body = .inl status) :
    ∃ q, Answered s.report q ⟨0x98, tag, u8 status.code⟩ ∧
      exec (.readCapture tag body) s = .next { s.taken rest with report := q } := by
  obtain ⟨q, answered, run⟩ := reply_answered (s.taken rest) 0x98 tag (u8 status.code)
  refine ⟨q, answered, (exec_readCapture begins).trans (congrArg _ (.trans ?_ run))⟩
  unfold State.beginRead
  rw [if_pos length, show (s.taken rest).capture = s.capture from rfl, refused]
  rfl

theorem exec_readCapture_begun {s : State} {tag : Byte} {body : List Byte} {rest : List Command} {j : ReadJob}
    (begins : Begins s ⟨0x18, tag, body⟩ rest) (length : commandLength 0x18 = some body.length)
    (job : s.capture.readJob tag body = .inr j) :
    exec (.readCapture tag body) s = .next
      { s.taken rest with
        capture := Capture.arbitrate { s.capture with job := some j }, report := { s.report with reserved := 1 } } := by
  refine (exec_readCapture begins).trans (congrArg _ ?_)
  unfold State.beginRead
  rw [if_pos length, show (s.taken rest).capture = s.capture from rfl, job]
  rfl

/-- The fields of a READ_CAPTURE body. -/
theorem readCapture_fields {id first : Nat} (count : Byte) (short : id < 65536) (short' : first < 65536) :
    field16 (u16 id ++ u16 first ++ [count]) 0 = id ∧ field16 (u16 id ++ u16 first ++ [count]) 2 = first ∧
      field8 (u16 id ++ u16 first ++ [count]) 4 = count.toNat :=
  ⟨field16_of rfl rfl short, field16_of rfl rfl short', rfl⟩

/-! ### The completion of a read (R138, R141) -/

theorem getD_readAll (m : List Host.Cell) (a n i : Nat) (h : i < n) : (Memory.readAll m a n).getD i 0 = Memory.read m (a + i) := by
  induction n generalizing a i with
  | zero => omega
  | succ n ih =>
    cases i with
    | zero => rfl
    | succ i =>
      refine (ih (a + 1) i (by omega)).trans ?_
      rw [Nat.add_right_comm, Nat.add_assoc]

theorem exec_memoryReadDone {s : State} {i : Fin 16} {p : Nat} (idle : s.blockEndBegun = false)
    (reading : s.capture.inFlight = some (.read i p)) :
    exec .memoryReadDone s =
      if p < 10000 then .next (s.completeRead i p) else .fault (.outsideCaptureMemory p) := by
  refine (show _ = execMemoryReadDone s from rfl).trans ?_
  unfold execMemoryReadDone
  rw [settle_of_not_begun _ s idle]
  dsimp only
  rw [reading]
  rfl

/-- The block a read has brought. -/
def State.blockRead (s : State) (i : Fin 16) (p : Nat) : List Byte := Memory.readAll s.memory (captureAddress i p) 100

theorem completeRead_more {s : State} {i : Fin 16} {p : Nat} {j : ReadJob} (job : s.capture.job = some j)
    (more : j.got.length + 1 < j.count) :
    s.completeRead i p = { s with
      capture := Capture.arbitrate
        { s.capture with inFlight := none, job := some { j with got := j.got ++ [s.blockRead i p] } } } := by
  unfold State.completeRead
  dsimp only
  rw [job]
  dsimp only
  rw [if_pos (by rw [List.length_append]; exact more)]
  rfl

theorem completeRead_last {s : State} {i : Fin 16} {p : Nat} {j : ReadJob} (job : s.capture.job = some j)
    (last : j.count ≤ j.got.length + 1) :
    ∃ q, Answered { s.report with reserved := 0 } q
        ⟨0x98, j.tag, [0] ++ u16 j.id ++ u16 j.first ++ u8 j.count ++ (j.got ++ [s.blockRead i p]).flatten⟩ ∧
      s.completeRead i p = { s with
        capture := Capture.arbitrate { s.capture with inFlight := none, job := none }, report := q } := by
  obtain ⟨q, answered, run⟩ := reply_answered
    { s with capture := { s.capture with inFlight := none, job := none }, report := { s.report with reserved := 0 } }
    0x98 j.tag (ReadJob.replyBody { j with got := j.got ++ [s.blockRead i p] })
  refine ⟨q, answered, ?_⟩
  unfold State.completeRead
  dsimp only
  rw [job]
  dsimp only
  rw [if_neg (by rw [List.length_append]; exact Nat.not_lt.2 last)]
  exact congrArg State.arbitrate run

/-! ### RELEASE_CAPTURE (R142) -/

theorem released_other (k : Capture) {i j : Fin 16} (d : Descriptor) (other : j ≠ i) :
    (k.release i d).regions[j] = k.regions[j].younger d.age := by
  refine (Vector.getElem_map _ j.isLt).trans (congrArg _ ?_)
  exact Vector.getElem_set_ne i.isLt j.isLt fun same => other (Fin.ext same.symm)

theorem released_same (k : Capture) (i : Fin 16) (d : Descriptor) : (k.release i d).regions[i] = .free := by
  refine (Vector.getElem_map _ i.isLt).trans ?_
  rw [Vector.getElem_set_self]
  rfl

/-- Settles O57: what READ_CAPTURE makes of the capture its id finds, the two completions of a read, and a release. -/
theorem captureReadsAndRelease : Obligations.CaptureReadsAndRelease := by
  refine ⟨fun s tag count id first rest short short' => ?_, fun s i p idle reading => ⟨fun outside => ?_, fun inside j job => ?_⟩,
    fun s tag id rest short => ?_⟩
  · intro body k begins refused
    obtain ⟨idField, firstField, countField⟩ := readCapture_fields count short short'
    have refuse {status : Status} (h : k.readJob tag body = .inl status) := exec_readCapture_refused begins rfl h
    refine ⟨fun lent => refuse (status := .wrongState) (if_pos lent), fun owned no => refuse (status := .notFound) ?_,
      fun i only owned => ⟨fun d tail role same => refuse (status := .wrongState) ?_,
        fun d role same => ⟨fun beyond => refuse (status := .badValue) ?_, fun within => ?_⟩⟩⟩
    · unfold Capture.readJob
      rw [if_neg (by simp [owned]), idField, findId_eq_none no]
    · unfold Capture.readJob
      rw [if_neg (by simp [owned]), idField, findId_eq_some (by rw [role]; rfl) same only]
      dsimp only
      rw [role]
    · unfold Capture.readJob
      rw [if_neg (by simp [owned]), idField, findId_eq_some (by rw [role]; rfl) same only]
      dsimp only
      rw [role]
      dsimp only
      rw [firstField, if_pos beyond]
    · have job : k.readJob tag body =
          .inr ⟨tag, id, i, d.start, first, min (max 1 (min 8 count.toNat)) (d.length - first), []⟩ := by
        unfold Capture.readJob
        rw [if_neg (by simp [owned]), idField, findId_eq_some (by rw [role]; rfl) same only]
        dsimp only
        rw [role]
        dsimp only
        rw [firstField, if_neg (Nat.not_le.2 within), countField, same]
        rfl
      obtain ⟨j, begun⟩ : ∃ j : ReadJob,
          j = ⟨tag, id, i, d.start, first, min (max 1 (min 8 count.toNat)) (d.length - first), []⟩ := ⟨_, rfl⟩
      rw [← begun] at job
      have arbiter := Capture.arbitrate_eq { k with job := some j }
      have next (idle : k.inFlight = none) :=
        arbitrate_next { k with job := some j } idle (by rw [show _ = _ from owned]; decide)
      refine ⟨_, exec_readCapture_begun begins rfl job, rfl, ?_, ?_, fun flying => ?_, fun idle empty => ?_, fun idle => ?_⟩
      · exact arbiter.trans (by rw [arbiter])
      · exact (congrArg Capture.job arbiter).trans (congrArg some begun)
      · have keeps := arbitrate_keeps_inFlight (k := { k with job := some j }) flying
        exact ⟨(congrArg Capture.inFlight keeps :), (congrArg Capture.buffer keeps :)⟩
      · have reads := next_of_empty (next idle) empty rfl (by rw [begun]; dsimp only [List.length_nil]; omega)
        rw [begun] at reads ⊢
        exact reads
      · have next := next idle
        rw [← (congrArg Capture.job arbiter :)] at next
        exact next
  · rw [exec_memoryReadDone idle reading, if_neg (Nat.not_lt.2 outside)]
  · refine ⟨s.blockRead i p, Memory.readAll_length _ _ _, fun a small => getD_readAll _ _ _ _ small, ?_⟩
    rw [exec_memoryReadDone idle reading, if_pos inside]
    refine ⟨_, rfl, ?_⟩
    by_cases more : j.got.length + 1 < j.count
    · rw [completeRead_more job more]
      refine ⟨rfl, ?_, fun owned => ?_, fun _ => ⟨?_, rfl⟩, fun last => absurd more (Nat.not_lt.2 last)⟩
      · dsimp only
        rw [Capture.arbitrate_eq]
      · have next := arbitrate_next
          { s.capture with inFlight := none, job := some { j with got := j.got ++ [s.blockRead i p] } } rfl owned
        dsimp only
        rw [Capture.arbitrate_eq] at next ⊢
        exact next
      · dsimp only
        rw [Capture.arbitrate_eq]
    · obtain ⟨q, answered, run⟩ := completeRead_last (i := i) (p := p) job (Nat.not_lt.1 more)
      rw [run]
      refine ⟨rfl, ?_, fun owned => ?_, fun more' => absurd more' more, fun _ => ⟨?_, answered⟩⟩
      · dsimp only
        rw [Capture.arbitrate_eq]
      · have next := arbitrate_next { s.capture with inFlight := none, job := none } rfl owned
        dsimp only
        rw [Capture.arbitrate_eq] at next ⊢
        exact next
      · dsimp only
        rw [Capture.arbitrate_eq]
  · intro body k begins answers
    have idField : field16 body 0 = id := field16_of rfl rfl short
    have answer {a : Answer} (h : releaseCaptureRule body (s.taken rest) = a) :=
      exec_answer (i := .releaseCapture tag body) (rule := releaseCaptureRule) (a := a) rfl begins rfl h
    refine ⟨fun no => answer (a := .refuse (s.taken rest) .notFound) ?_, fun i only =>
      ⟨fun d tail role same => answer (a := .refuse (s.taken rest) .wrongState) ?_, fun d role same =>
        ⟨(k.release i d).regions, answer (a := .done { s.taken rest with capture := k.release i d }) ?_, released_same k i d,
          fun j other => by rw [released_other k d other]; exact movesUp_younger _ _⟩⟩⟩
    · unfold releaseCaptureRule
      rw [idField, show (s.taken rest).capture = s.capture from rfl, findId_eq_none no]
    · unfold releaseCaptureRule
      rw [idField, show (s.taken rest).capture = s.capture from rfl, findId_eq_some (by rw [role]; rfl) same only]
      dsimp only
      rw [role]
    · unfold releaseCaptureRule
      rw [idField, show (s.taken rest).capture = s.capture from rfl, findId_eq_some (by rw [role]; rfl) same only]
      dsimp only
      rw [role]

/-! ### The drain (R144) -/

/-- An arbiter that finds an entry in the buffer of a memory not lent leaves the port busy. -/
theorem arbitrate_busy {k : Capture} (owned : k.lend ≠ .lent) (entries : k.buffer ≠ []) : k.arbitrate.inFlight.isSome = true := by
  have chosen : ∃ op rest, k.choose = some (op, rest) := by
    obtain ⟨e, es, buffer⟩ := List.exists_cons_of_ne_nil entries
    unfold Capture.choose
    rw [buffer]
    cases k.waitingRead with
    | none => exact ⟨_, _, rfl⟩
    | some x =>
      by_cases full : 3 ≤ (e :: es).length
      · exact ⟨_, _, if_pos full⟩
      · exact ⟨_, _, if_neg full⟩
  obtain ⟨op, rest, chosen⟩ := chosen
  unfold Capture.arbitrate
  rw [chosen]
  cases flying : k.inFlight with
  | some op => exact congrArg Option.isSome flying
  | none =>
    cases lend : k.lend with
    | lent => exact absurd lend owned
    | owned | lending => rfl

theorem drain_waits {s : State} (h : s.capture.lend ≠ .lending ∨ s.capture.buffer ≠ [] ∨ s.capture.inFlight.isSome = true) :
    s.drain = s := by
  unfold State.drain
  split
  · next lending empty idle =>
    rw [lending, empty, idle] at h
    simp at h
  · rfl

theorem drain_over {s : State} (lending : s.capture.lend = .lending) (empty : s.capture.buffer = [])
    (idle : s.capture.inFlight = none) :
    s.drain = State.offer { s with capture := { s.capture with lend := .lent } } none s.clock.now .memoryLent := by
  unfold State.drain
  rw [lending, empty, idle]

/-- A drain changes the lend state of the capture controller at most. -/
theorem drain_capture_eq (s : State) : s.drain.capture = { s.capture with lend := s.drain.capture.lend } := by
  unfold State.drain
  split
  · rw [offer_capture]
  · rfl

/-- An event behind a busy transmitter leaves records and replies where they are. -/
theorem offer_busy {s : State} (busy : s.report.sending.isSome = true) (c : Option Chan) (stamp : Stamp) (body : EventBody) :
    (s.offer c stamp body).fifo = s.fifo ∧ (s.offer c stamp body).report.replies = s.report.replies := by
  obtain ⟨m, sending⟩ := Option.isSome_iff_exists.1 busy
  cases passes : s.report.passes c body with
  | false => rw [offer_barred s c stamp body passes]; exact ⟨rfl, rfl⟩
  | true =>
    rw [offer_sending s c stamp body m passes sending]
    refine ⟨rfl, ?_⟩
    dsimp only [ReportQueue.enqueue]
    split <;> rfl

/-! ### LEND_MEMORY and RECLAIM_MEMORY (R144, R145) -/

theorem exec_lendMemory {s : State} {tag : Byte} {rest : List Command} (begins : Begins s ⟨0x1A, tag, []⟩ rest) :
    exec (.lendMemory tag []) s = .next
      (if (lendMemoryRule [] (s.taken rest)).status = .ok then ((lendMemoryRule [] (s.taken rest)).send 0x1A tag).drain
      else (lendMemoryRule [] (s.taken rest)).send 0x1A tag) :=
  congrArg _ (runCommandThen_of_begins Config.pick lendMemoryRule State.drain begins)

theorem exec_lendMemory_refused {s : State} {tag : Byte} {rest : List Command} (begins : Begins s ⟨0x1A, tag, []⟩ rest)
    (h : s.capture.lend ≠ .owned) :
    ∃ q, Answered s.report q ⟨0x9A, tag, [4]⟩ ∧
      exec (.lendMemory tag []) s = .next { s.taken rest with report := q } := by
  have rule : lendMemoryRule [] (s.taken rest) = .refuse (s.taken rest) .wrongState := by
    unfold lendMemoryRule
    rw [show (s.taken rest).capture = s.capture from rfl]
    cases lend : s.capture.lend with
    | owned => exact absurd lend h
    | lending | lent => rfl
  obtain ⟨q, answered, run⟩ := reply_answered (s.taken rest) 0x9A tag [4]
  refine ⟨q, answered, (exec_lendMemory begins).trans (congrArg _ ?_)⟩
  rw [rule]
  exact run

/-- An owned memory: the reply, and then the drain. -/
theorem exec_lendMemory_owned {s : State} {tag : Byte} {rest : List Command} (begins : Begins s ⟨0x1A, tag, []⟩ rest)
    (h : s.capture.lend = .owned) :
    ∃ q, Answered s.report q ⟨0x9A, tag, [0]⟩ ∧ exec (.lendMemory tag []) s = .next
      (State.drain { s.taken rest with report := q, capture := { s.capture with lend := .lending } }) := by
  have rule : lendMemoryRule [] (s.taken rest) =
      .done { s.taken rest with capture := { s.capture with lend := .lending } } := by
    unfold lendMemoryRule
    rw [show (s.taken rest).capture = s.capture from rfl, h]
  obtain ⟨q, answered, run⟩ := reply_answered { s.taken rest with capture := { s.capture with lend := .lending } } 0x9A tag [0]
  refine ⟨q, answered, (exec_lendMemory begins).trans (congrArg _ ?_)⟩
  rw [rule]
  exact congrArg State.drain run

/-! ### The completion of a write (R138, R144) -/

theorem exec_memoryWriteDone {s : State} {e : BufferEntry} (idle : s.blockEndBegun = false)
    (writing : s.capture.inFlight = some (.write e)) :
    exec .memoryWriteDone s =
      if e.position < 10000 then .next (s.completeWrite e) else .fault (.outsideCaptureMemory e.position) := by
  refine (show _ = execMemoryWriteDone s from rfl).trans ?_
  unfold execMemoryWriteDone
  rw [settle_of_not_begun _ s idle]
  dsimp only
  rw [writing]
  rfl

theorem exec_memoryWriteDone_idle {s : State} (idle : s.blockEndBegun = false)
    (none : ∀ e, s.capture.inFlight ≠ some (.write e)) : exec .memoryWriteDone s = .next s := by
  refine (show _ = execMemoryWriteDone s from rfl).trans ?_
  unfold execMemoryWriteDone
  rw [settle_of_not_begun _ s idle]
  dsimp only
  split
  · next e writing => exact absurd writing (none e)
  · rfl

theorem exec_memoryReadDone_idle {s : State} (idle : s.blockEndBegun = false)
    (none : ∀ i p, s.capture.inFlight ≠ some (.read i p)) : exec .memoryReadDone s = .next s := by
  refine (show _ = execMemoryReadDone s from rfl).trans ?_
  unfold execMemoryReadDone
  rw [settle_of_not_begun _ s idle]
  dsimp only
  split
  · next i p reading => exact absurd reading (none i p)
  · rfl

/-- The capture controller as the arbiter leaves it behind a completed write. -/
def Capture.written (k : Capture) : Capture := Capture.arbitrate { k with inFlight := none }

theorem written_eq (k : Capture) : k.written = { k with buffer := k.written.buffer, inFlight := k.written.inFlight } := by
  unfold Capture.written
  rw [Capture.arbitrate_eq]

theorem written_next {k : Capture} (owned : k.lend ≠ .lent) :
    NextOperation k.buffer k.job k.written.inFlight k.written.buffer := arbitrate_next { k with inFlight := none } rfl owned

theorem completeWrite_eq (s : State) (e : BufferEntry) :
    s.completeWrite e = State.drain { s with
      memory := Memory.writeAll s.memory (captureAddress e.region e.position) e.bytes, capture := s.capture.written } := rfl

theorem completeWrite_capture (s : State) (e : BufferEntry) :
    (s.completeWrite e).capture = { s.capture with
      buffer := s.capture.written.buffer, inFlight := s.capture.written.inFlight
      lend := (s.completeWrite e).capture.lend } := by
  rw [completeWrite_eq, drain_capture_eq]
  dsimp only
  rw [written_eq]

/-- Behind a completed write nothing else happens while the memory is not lending or an entry is left. -/
theorem completeWrite_waits {s : State} {e : BufferEntry} (h : s.capture.lend ≠ .lending ∨ s.capture.buffer ≠ []) :
    (s.completeWrite e).report = s.report ∧ (s.completeWrite e).capture.lend = s.capture.lend := by
  have lend : s.capture.written.lend = s.capture.lend := by rw [written_eq]
  rw [completeWrite_eq, drain_waits]
  · exact ⟨rfl, lend⟩
  · dsimp only
    rw [lend]
    by_cases lending : s.capture.lend = .lending
    · have entries := h.resolve_left (not_not.2 lending)
      exact .inr (.inr (arbitrate_busy (k := { s.capture with inFlight := none })
        (fun lent => by rw [show s.capture.lend = _ from lent] at lending; cases lending) entries))
    · exact .inl lending

/-- The last write of a drain. -/
theorem completeWrite_last {s : State} {e : BufferEntry} (lending : s.capture.lend = .lending)
    (empty : s.capture.written.buffer = []) (idle : s.capture.written.inFlight = none) :
    (s.completeWrite e).capture.lend = .lent ∧ (TakesEvents s.report 1 →
      (s.completeWrite e).report.events = s.report.events ++ [⟨none, s.clock.now, .memoryLent⟩]) := by
  have lend : s.capture.written.lend = .lending := by rw [written_eq]; exact lending
  rw [completeWrite_eq, drain_over lend empty idle]
  refine ⟨by rw [offer_capture], fun takes => ?_⟩
  rw [offer_events (n := 0) (by exact takes)]

/-- Settles O58: the drain behind the reply of LEND_MEMORY, a reclaim, and the completion of a write. -/
theorem lendReclaimAndWrites : Obligations.LendReclaimAndWrites := by
  refine ⟨fun s tag rest => ?_, fun s idle => ⟨exec_memoryWriteDone_idle idle, exec_memoryReadDone_idle idle⟩,
    fun s e idle writing => ⟨fun outside => ?_, fun inside => ?_⟩⟩
  · intro s' k refused
    refine ⟨fun begins => ⟨exec_lendMemory_refused begins, fun owned => ?_⟩, fun begins => ⟨fun keeps => ?_, fun lent => ?_⟩⟩
    · obtain ⟨q, answered, run⟩ := exec_lendMemory_owned begins owned
      refine ⟨fun left => ⟨q, answered, run.trans (congrArg _ (drain_waits (.inr (by exact left))))⟩, fun empty still => ?_⟩
      · have run := run.trans (congrArg _ (drain_over rfl (by exact empty) (by exact still)))
        refine ⟨_, run, ?_, fun busy => ?_, fun takes => ?_⟩
        · rw [offer_frame]
        · obtain ⟨m, sending⟩ := Option.isSome_iff_exists.1 busy
          have sending' := answered_sending answered sending
          obtain ⟨fifo, replies⟩ := offer_busy (s := { s' with report := q, capture := { k with lend := .lent } })
            answered.2.1 none s.clock.now .memoryLent
          refine ⟨fifo, replies.trans ?_⟩
          have order := answered.2.2
          rw [sending, sending'] at order
          exact (List.cons.inj order).2
        · have takes' : TakesEvents q 1 := by
            rw [answered.1]
            exact ⟨answered.2.1, takes.2⟩
          refine (offer_events (n := 0) (s := { s' with report := q, capture := { k with lend := .lent } }) takes' _ _ _).trans ?_
          exact congrArg (· ++ [_]) (answered_events answered)
    · refine exec_answer (i := .reclaimMemory tag []) (rule := reclaimMemoryRule Config.lentMemory)
        (a := .refuse (s.taken rest) .wrongState) rfl begins rfl ?_
      unfold reclaimMemoryRule
      rw [show (s.taken rest).capture = s.capture from rfl]
      cases lend : s.capture.lend with
      | lent => exact absurd lend keeps
      | lending | owned => rfl
    · obtain ⟨q, answered, run⟩ := exec_answer (i := .reclaimMemory tag []) (rule := reclaimMemoryRule Config.lentMemory)
        (a := .done { s.taken rest with
          memory := reclaimedMemory Config.lentMemory (s.taken rest), choice := s.choice + 1
          capture := { s.capture.emptyRings with lend := .owned } }) rfl begins rfl (by
            unfold reclaimMemoryRule
            rw [show (s.taken rest).capture = s.capture from rfl, lent]
            rfl)
      exact ⟨q, _, answered, Memory.ofCells_wf _, run⟩
  · rw [exec_memoryWriteDone idle writing, if_neg (Nat.not_lt.2 outside)]
  · rw [exec_memoryWriteDone idle writing, if_pos inside]
    have capture := completeWrite_capture s e
    refine ⟨_, rfl, completeWrite_frame s e, fun held a => ?_, ?_, ?_, ?_, completeWrite_waits, fun owned => ?_,
      fun owned job b bs buffer => ?_, fun empty job => ?_, fun lending empty job => ?_⟩
    · have read := Memory.read_writeAll e.bytes held (captureAddress e.region e.position) a
      rw [completeWrite_memory, read]
      exact ⟨fun low high => if_pos ⟨low, high⟩, fun out => if_neg fun ⟨low, high⟩ =>
        out.elim (fun below => absurd low (Nat.not_le.2 below)) fun above => absurd high (Nat.not_lt.2 above)⟩
    · rw [capture]
    · rw [capture]
    · rw [capture]
    · rw [capture]
      exact written_next owned
    · rw [capture]
      exact next_of_write (written_next owned) buffer job
    · rw [capture]
      by_cases owned : s.capture.lend = .lent
      · dsimp only [Capture.written]
        rw [arbitrate_of_lent (k := { s.capture with inFlight := none }) owned]
      · exact (next_of_nothing (written_next owned) empty job).1
    · obtain ⟨still, none⟩ := next_of_nothing (written_next (by rw [lending]; decide)) empty job
      exact completeWrite_last lending none still

end Sys2Proof.Machine
end

section
/-! PROOFS. Chapter 3: the level in its mean square, the thresholds as its inverse (R49, R50), and the site contribution (R52). -/

namespace Sys2Proof.Machine

/-! ### Levels compared by their mean squares -/

section Compare

variable {v v' n n' : Nat} (hv : 0 < v) (hv' : 0 < v') (hn : 0 < n) (hn' : 0 < n')
include hv hv' hn hn'

/-- The level never falls as the mean square grows. -/
theorem level_le_level (k : Int) (h : v * n' ≤ v' * n) : level k v n ≤ level k v' n' := by
  have quotients : (v : ℝ) / n ≤ (v' : ℝ) / n' := by
    rw [div_le_div_iff₀ (by positivity) (by positivity)]
    exact_mod_cast h
  have reached := (le_round_exactLevel_iff hv hn _).1 (le_refl (round (exactLevel v n)))
  have rounds := (le_round_exactLevel_iff hv' hn' _).2 (reached.trans quotients)
  rw [level_eq_round_add k hv hn, level_eq_round_add k hv' hn']
  omega

theorem level_congr (k : Int) (h : v * n' = v' * n) : level k v n = level k v' n' :=
  le_antisymm (level_le_level hv hv' hn hn' k h.le) (level_le_level hv' hv hn' hn k h.ge)

end Compare

/-! ### The range of levels (R48) -/

theorem logb_two_le : 485 * Real.logb 10 2 ≤ 146 := by
  have power : (97 : Nat) * Real.logb 10 32 ≤ 146 := by
    rw [← Real.logb_pow, Real.logb_le_iff_le_rpow one_lt_ten (by norm_num)]
    norm_num
  rw [show (32 : ℝ) = 2 ^ 5 by norm_num, Real.logb_pow] at power
  push_cast at power
  linarith

/-- A mean square of at most 2^46 (R43, R44). -/
theorem round_exactLevel_le {v n : Nat} (hv : 0 < v) (hn : 0 < n) (h : v ≤ n * 2 ^ 46) : round (exactLevel v n) ≤ 13847 := by
  have quotient : (v : ℝ) / n ≤ 2 ^ 46 := by
    rw [div_le_iff₀' (by positivity)]
    exact_mod_cast h
  have log : exactLevel v n ≤ 46000 * Real.logb 10 2 :=
    calc exactLevel v n
        ≤ 1000 * Real.logb 10 (2 ^ 46) := by
          unfold exactLevel
          have := meanSquare_pos hv hn
          gcongr
          exact one_lt_ten
      _ = 46000 * Real.logb 10 2 := by rw [Real.logb_pow]; push_cast; ring
  rw [round_eq, ← Int.lt_add_one_iff, Int.floor_lt]
  push_cast
  linarith [logb_two_le]

/-- A mean square of at least one unit over the longest interval (R43). -/
theorem le_round_exactLevel {v n : Nat} (hv : 0 < v) (hn : 0 < n) (h : n ≤ 172800000) : -8600 ≤ round (exactLevel v n) := by
  have samples : Real.logb 10 n ≤ 8.6 - 1 / 2000 := by
    have eight : Real.logb 10 172800000 ≤ 8.5 := by
      have power : (2 : Nat) * Real.logb 10 172800000 ≤ 17 := by
        rw [← Real.logb_pow, Real.logb_le_iff_le_rpow one_lt_ten (by norm_num)]
        norm_num
      push_cast at power
      linarith
    have mono : Real.logb 10 n ≤ Real.logb 10 172800000 :=
      Real.logb_le_logb_of_le one_lt_ten (by positivity) (by exact_mod_cast h)
    linarith
  have sound : 0 ≤ Real.logb 10 v := Real.logb_nonneg one_lt_ten (by exact_mod_cast hv)
  rw [round_eq, Int.le_floor, exactLevel, Real.logb_div (by positivity) (by positivity)]
  push_cast
  linarith

theorem level_bounds {k : Int} {v n : Nat} (hv : 0 < v) (hn : 0 < n) (low : -10000 ≤ k) (high : k ≤ 15000)
    (samples : n ≤ 172800000) (sum : v ≤ n * 2 ^ 46) : -18600 ≤ level k v n ∧ level k v n ≤ 28847 := by
  rw [level_eq_round_add k hv hn]
  have := round_exactLevel_le hv hn sum
  have := le_round_exactLevel hv hn samples
  omega

/-- Settles O27: levels compared by the products of sums and counts, and bounded by those of 1 and 2^46. -/
theorem levelFollowsMeanSquare : Obligations.LevelFollowsMeanSquare := by
  intro k v v' n n' hv hv' hn hn'
  refine ⟨level_congr hv hv' hn hn' k, ?_, fun h => level_le_level hv hv' hn hn k (Nat.mul_le_mul_right n h),
    fun h => level_le_level hv hv hn' hn k (Nat.mul_le_mul_left v h), level_bounds hv hn, fun low high peak => ?_⟩
  · rw [level_eq_round_add k hv hn, level_eq_round_add 0 hv hn, add_zero]
  · refine level_bounds (by positivity) (by decide) low high (by decide) ?_
    calc v ^ 2 ≤ (2 ^ 31) ^ 2 := Nat.pow_le_pow_left peak 2
      _ ≤ 65536 * 2 ^ 46 := by norm_num

/-! ### Thresholds (R49, R50) -/

theorem reaches_zero {n : Nat} (hn : 0 < n) (m : Int) : reaches 0 n m = false := by
  have positive : 0 < n ^ 2000 := pow_pos hn 2000
  unfold reaches
  rw [zero_pow (by decide), zero_mul]
  split
  · exact decide_eq_false (Nat.not_le.2 (Nat.mul_pos (Nat.pow_pos (by decide)) positive))
  · exact decide_eq_false (Nat.not_le.2 positive)

/-- R50 for a sum over `n` samples: its level stays within the limit up to a bound of the sum. -/
theorem not_reaches_iff {n : Nat} (v : Nat) (hn : 0 < n) (bound : Int) :
    reaches v n (bound + 1) = false ↔ (v : ℝ) < n * (10 : ℝ) ^ (((bound : ℝ) + 1 / 2) / 1000) := by
  rcases Nat.eq_zero_or_pos v with rfl | hv
  · rw [reaches_zero hn]
    exact iff_of_true rfl (by push_cast; positivity)
  · rw [← Bool.not_eq_true, reaches_iff_le_round hv hn, not_le, Int.lt_add_one_iff, round_exactLevel_le_iff hv hn,
      div_lt_iff₀' (by positivity)]

/-- A search for the greatest number below a positive real and within a cap. -/
theorem greatest_eq_min {p : Nat → Bool} {cap bits : Nat} {x : ℝ} (positive : 0 < x)
    (hp : ∀ v, p v = true ↔ v ≤ cap ∧ (v : ℝ) < x) (wide : cap < 2 ^ bits) :
    (greatest p bits 0 : Int) = min (cap : Int) (⌈x⌉ - 1) := by
  have one : 0 < ⌈x⌉ := Int.ceil_pos.2 positive
  obtain ⟨t, found⟩ := Int.eq_ofNat_of_zero_le (show 0 ≤ min (cap : Int) (⌈x⌉ - 1) by omega)
  have threshold (v : Nat) : p v = true ↔ v ≤ t := by
    rw [hp v, ← Int.cast_natCast, ← Int.lt_ceil]
    omega
  rw [greatest_eq threshold bits 0 (by omega) (by omega), found]

/-- R49 for a sum over `n` samples. -/
theorem largestWithin_eq {n cap : Nat} (bound : Int) (hn : 0 < n) :
    (largestWithin n cap bound : Int) = min (cap : Int) (⌈(n : ℝ) * (10 : ℝ) ^ (((bound : ℝ) + 1 / 2) / 1000)⌉ - 1) := by
  refine greatest_eq_min (by positivity) (fun v => ?_) Nat.lt_log2_self
  rw [Bool.and_eq_true, decide_eq_true_iff, Bool.not_eq_true', not_reaches_iff v hn]

/-- The level is above a limit exactly if the sum reaches the next integer. -/
theorem limit_lt_level_iff {n : Nat} (k limit : Int) (v : Nat) (hn : 0 < n) (low : -32768 ≤ limit) :
    limit < level k v n ↔ ¬reaches v n (limit - k + 1) = false := by
  rcases Nat.eq_zero_or_pos v with rfl | hv
  · rw [level_zero, reaches_zero hn]
    exact iff_of_false (not_lt.2 low) (not_not.2 rfl)
  · rw [Bool.not_eq_false, reaches_iff_le_round hv hn, level_eq_round_add k hv hn]
    omega

/-- R50: a quantity within the cap is above the bound that the ceiling gives exactly if it does not stay below the real. -/
theorem min_ceil_lt_iff {cap v : Nat} {x : ℝ} {t : Nat} (found : (t : Int) = min (cap : Int) (⌈x⌉ - 1)) (within : v ≤ cap) :
    t < v ↔ ¬(v : ℝ) < x := by
  rw [← Int.cast_natCast, ← Int.lt_ceil]
  omega

theorem largestWithin_lt_iff {n cap : Nat} (k limit : Int) (hn : 0 < n) (low : -32768 ≤ limit) {v : Nat} (within : v ≤ cap) :
    largestWithin n cap (limit - k) < v ↔ limit < level k v n := by
  rw [min_ceil_lt_iff (largestWithin_eq (limit - k) hn) within, limit_lt_level_iff k limit v hn low, not_reaches_iff v hn]

/-- The same for peaks, whose square is the mean square (R45). -/
theorem not_reaches_peak_iff (p : Nat) (bound : Int) :
    reaches (p ^ 2) 65536 (bound + 1) = false ↔ (p : ℝ) < 256 * (10 : ℝ) ^ (((bound : ℝ) + 1 / 2) / 2000) := by
  have square : ((65536 : Nat) : ℝ) * (10 : ℝ) ^ (((bound : ℝ) + 1 / 2) / 1000) =
      (256 * (10 : ℝ) ^ (((bound : ℝ) + 1 / 2) / 2000)) ^ 2 := by
    rw [mul_pow, ← Real.rpow_mul_natCast (by norm_num)]
    push_cast
    ring_nf
  rw [not_reaches_iff _ (by decide), square, Nat.cast_pow, sq_lt_sq₀ (by positivity) (by positivity)]

theorem peakThreshold_eq (k limit : Int) :
    (peakThreshold k limit : Int) =
      min ((2 ^ 31 : Nat) : Int) (⌈(256 : ℝ) * (10 : ℝ) ^ ((((limit - k : Int) : ℝ) + 1 / 2) / 2000)⌉ - 1) := by
  refine greatest_eq_min (by positivity) (fun p => ?_) (by decide)
  rw [Bool.and_eq_true, decide_eq_true_iff, Bool.not_eq_true', not_reaches_peak_iff]

/-- Settles O28: each threshold is a search whose test is a comparison with the ceiling's real. -/
theorem thresholdsInvertLevels : Obligations.ThresholdsInvertLevels := by
  intro k limit low
  refine ⟨fun n hn => ⟨?_, fun sum within => largestWithin_lt_iff k limit hn low within⟩, ?_,
    fun y within => largestWithin_lt_iff k limit (by decide) low within, ?_, fun p within => ?_⟩
  · have found := largestWithin_eq (cap := n * 2 ^ 46) (limit - k) hn
    push_cast at found
    exact found
  · have found := largestWithin_eq (n := 48) (cap := 48 * 2 ^ 46) (limit - k) (by decide)
    push_cast at found
    exact found
  · have found := peakThreshold_eq k limit
    push_cast at found
    exact found
  · rw [min_ceil_lt_iff (peakThreshold_eq k limit) within, peakLevel, limit_lt_level_iff k limit _ (by decide) low,
      not_reaches_peak_iff]

/-! ### Site contribution (R52) -/

theorem level_ne_nosig {k : Int} {v n : Nat} (hv : 0 < v) (hn : 0 < n) (low : -10000 ≤ k) (high : k ≤ 15000)
    (samples : n ≤ 172800000) (sum : v ≤ n * 2 ^ 46) : level k v n ≠ nosig := by
  have bounds := (level_bounds hv hn low high samples sum).1
  unfold nosig
  omega

/-- Settles O29: the test of R52 on levels in the range of R48, and the level of the difference of the mean squares. -/
theorem siteContributionIsDifference : Obligations.SiteContributionIsDifference := by
  intro mode k sa na sq nq low high samplesA samplesQ sumA sumQ
  refine ⟨fun silent => ?_, fun gate activeSamples quietSamples active quiet => ?_⟩
  · refine (if_pos ?_ : siteContribution mode k sa na sq nq = indet)
    obtain off | none | none | none | ⟨quiet, close⟩ := silent
    · exact .inl off
    · exact .inr (.inl none)
    · exact .inr (.inr (.inl none))
    · exact .inr (.inr (.inr (.inl (none ▸ level_zero k na))))
    · rcases Nat.eq_zero_or_pos nq with none | quietSamples
      · exact .inr (.inr (.inl none))
      · exact .inr (.inr (.inr (.inr ⟨level_ne_nosig quiet quietSamples low high samplesQ sumQ, close⟩)))
  · have less : sq * na < sa * nq := by
      rcases Nat.eq_zero_or_pos sq with rfl | sounding
      · rw [Nat.zero_mul]
        positivity
      · by_contra more
        have levels := level_le_level active sounding activeSamples quietSamples k (Nat.not_lt.1 more)
        omega
    have difference : 0 < sa * nq - sq * na := Nat.sub_pos_of_lt less
    have samples : 0 < na * nq := Nat.mul_pos activeSamples quietSamples
    have formed : siteContribution mode k sa na sq nq = level k (sa * nq - sq * na) (na * nq) := by
      refine if_neg ?_
      rintro (off | none | none | silent | ⟨sounding, close⟩)
      · exact off gate
      · omega
      · omega
      · exact level_ne_nosig active activeSamples low high samplesA sumA silent
      · rcases quiet with rfl | apart
        · exact sounding (level_zero k nq)
        · omega
    refine ⟨less, ?_, ?_⟩
    · rw [formed, level_eq_round_add k difference samples, exactLevel, Nat.cast_sub less.le]
      push_cast
      rfl
    · rw [formed]
      refine level_le_level difference active samples activeSamples k ?_
      calc (sa * nq - sq * na) * na ≤ sa * nq * na := Nat.mul_le_mul_right na (Nat.sub_le _ _)
        _ = sa * (na * nq) := by ring

end Sys2Proof.Machine
end

section
/-! PROOFS. Chapter 3: a percentile reads the bin in which its rank falls (R53, R54). -/

namespace Sys2Proof.Machine

/-! ### The scan -/

theorem percentileScan_bin (h0 rank : Nat) {l : List Nat} {k : Nat} (inside : k < l.length) {total : Nat}
    (low : total + (l.take k).sum < rank) (high : rank ≤ total + (l.take (k + 1)).sum) :
    percentileScan h0 rank l l.length total = (h0 : Int) + 50 * ((l.length - 1 - k : Nat) : Int) := by
  induction l generalizing k total with
  | nil => exact absurd inside (Nat.not_lt_zero k)
  | cons count rest ih =>
    rw [List.take_succ_cons, List.sum_cons, ← Nat.add_assoc] at high
    unfold percentileScan
    cases k with
    | zero =>
      rw [List.take_zero, List.sum_nil, Nat.add_zero] at high
      rw [if_pos high, List.length_cons]
      congr 2
      omega
    | succ k =>
      rw [List.take_succ_cons, List.sum_cons] at low
      have inside' : k < rest.length := Nat.lt_of_succ_lt_succ inside
      rw [if_neg (by omega), List.length_cons, Nat.add_sub_cancel, ih inside' (by omega) (by omega)]
      congr 2
      omega

theorem percentileScan_below (h0 rank : Nat) (l : List Nat) (i : Nat) {total : Nat} (high : total + l.sum < rank) :
    percentileScan h0 rank l i total = below := by
  induction l generalizing i total with
  | nil => rfl
  | cons count rest ih =>
    rw [List.sum_cons] at high
    unfold percentileScan
    rw [if_neg (by omega), ih _ (by omega)]

/-! ### The running total from the overflow bin downward -/

/-- The running total of the overflow bin and the regular bins from bin `i` upward (R54). -/
def runningTotal (top : Nat) (bins : List Nat) (i : Nat) : Nat := top + (bins.drop i).sum

theorem runningTotal_zero (top : Nat) (bins : List Nat) : runningTotal top bins 0 = top + bins.sum := rfl

theorem runningTotal_length (top : Nat) (bins : List Nat) : runningTotal top bins bins.length = top := by
  rw [runningTotal, List.drop_length, List.sum_nil, Nat.add_zero]

theorem runningTotal_antitone (top : Nat) (bins : List Nat) : Antitone (runningTotal top bins) :=
  antitone_nat_of_succ_le fun i => by
    unfold runningTotal
    by_cases inside : i < bins.length
    · rw [List.drop_eq_getElem_cons inside, List.sum_cons]
      omega
    · rw [List.drop_eq_nil_of_le (Nat.not_lt.1 inside), List.drop_eq_nil_of_le (by omega)]

theorem take_reverse_sum (bins : List Nat) (i : Nat) (h : i ≤ bins.length) :
    (bins.reverse.take (bins.length - i)).sum = (bins.drop i).sum := by
  rw [List.take_reverse, List.sum_reverse, Nat.sub_sub_self h]

/-! ### The percentile -/

/-- The rank of R54 as it is computed. -/
def rankOf (n total : Nat) : Nat := (n * total + 99) / 100

theorem ceil_rank (n total : Nat) : ⌈((n * total : Nat) : ℚ) / 100⌉ = (rankOf n total : Int) := by
  have low : n * total ≤ 100 * rankOf n total := by unfold rankOf; omega
  have high : 100 * rankOf n total < n * total + 100 := by unfold rankOf; omega
  have low' : ((n * total : Nat) : ℚ) ≤ 100 * rankOf n total := by exact_mod_cast low
  have high' : (100 * rankOf n total : ℚ) < (n * total : Nat) + 100 := by exact_mod_cast high
  rw [Int.ceil_eq_iff]
  push_cast at low' high' ⊢
  constructor <;> linarith

section Reads

variable {h0 : Nat} {bins : List Nat} {top total n : Nat} (samples : 0 < total)
include samples

theorem percentile_above (h : rankOf n total ≤ top) : percentile h0 bins top total n = above := by
  unfold percentile
  rw [if_neg samples.ne']
  exact if_pos h

theorem percentile_bin {i : Nat} (inside : i < bins.length) (low : runningTotal top bins (i + 1) < rankOf n total)
    (high : rankOf n total ≤ runningTotal top bins i) : percentile h0 bins top total n = (h0 : Int) + 50 * (i : Int) := by
  have beyond : ¬rankOf n total ≤ top := by
    have : top ≤ runningTotal top bins (i + 1) := Nat.le_add_right _ _
    omega
  have position : bins.length - (i + 1) + 1 = bins.length - i := by omega
  have scan := percentileScan_bin h0 (rankOf n total) (l := bins.reverse) (k := bins.length - (i + 1)) (total := top)
    (by rw [List.length_reverse]; omega) (by rw [take_reverse_sum bins _ inside]; exact low)
    (by rw [position, take_reverse_sum bins _ inside.le]; exact high)
  unfold percentile
  rw [if_neg samples.ne']
  refine (if_neg beyond).trans ?_
  rw [List.length_reverse] at scan
  refine scan.trans ?_
  congr 2
  omega

theorem percentile_below (h : runningTotal top bins 0 < rankOf n total) : percentile h0 bins top total n = below := by
  rw [runningTotal_zero] at h
  unfold percentile
  rw [if_neg samples.ne']
  refine (if_neg (show ¬rankOf n total ≤ top by omega)).trans (percentileScan_below h0 _ _ _ ?_)
  rw [List.sum_reverse]
  exact h

/-- Where a rank falls: the overflow bin, a regular bin, or below. -/
theorem percentile_reads :
    (rankOf n total ≤ top ∧ percentile h0 bins top total n = above) ∨
    (∃ i < bins.length, runningTotal top bins (i + 1) < rankOf n total ∧ rankOf n total ≤ runningTotal top bins i ∧
      percentile h0 bins top total n = (h0 : Int) + 50 * (i : Int)) ∨
    (runningTotal top bins 0 < rankOf n total ∧ percentile h0 bins top total n = below) := by
  by_cases low : runningTotal top bins 0 < rankOf n total
  · exact .inr (.inr ⟨low, percentile_below samples low⟩)
  by_cases high : rankOf n total ≤ top
  · exact .inl ⟨high, percentile_above samples high⟩
  have crosses : ∃ j, runningTotal top bins j < rankOf n total :=
    ⟨bins.length, by rw [runningTotal_length]; exact Nat.not_le.1 high⟩
  have first := Nat.find_spec crosses
  have within : Nat.find crosses ≤ bins.length := Nat.find_le (by rw [runningTotal_length]; exact Nat.not_le.1 high)
  obtain ⟨i, next⟩ := Nat.exists_eq_succ_of_ne_zero (n := Nat.find crosses) fun start => low (start ▸ first)
  have reached := Nat.not_lt.1 (Nat.find_min crosses (m := i) (by omega))
  rw [next] at first within
  exact .inr (.inl ⟨i, within, first, reached, percentile_bin samples within first reached⟩)

end Reads

/-- Settles O30: the three readings exclude each other, by their values and by the running total. -/
theorem percentileReadsRank : Obligations.PercentileReadsRank := by
  intro h0 bins top under n base length low high total rank
  have rank_eq : rank = (rankOf n total : Int) := ceil_rank n total
  refine ⟨fun none => if_pos none, fun samples => ?_⟩
  have falls := runningTotal_antitone top bins
  have reads (n : Nat) := percentile_reads (h0 := h0) (bins := bins) (top := top) (n := n) samples
  refine ⟨?_, fun i inside => ?_, ?_, fun n' more _ => ?_⟩
  · rw [rank_eq, Nat.cast_le]
    refine ⟨fun value' => ?_, percentile_above samples⟩
    obtain ⟨h, -⟩ | ⟨i, inside, -, -, value⟩ | ⟨-, value⟩ := reads n
    · exact h
    · omega
    · rw [value'] at value
      exact absurd value (by decide)
  · rw [rank_eq, Nat.cast_lt, Nat.cast_le]
    refine ⟨fun value' => ?_, fun ⟨after, upTo⟩ => percentile_bin samples (length ▸ inside) after upTo⟩
    obtain ⟨-, value⟩ | ⟨j, -, after, upTo, value⟩ | ⟨-, value⟩ := reads n
    · unfold above at value
      omega
    · obtain rfl : j = i := by omega
      exact ⟨after, upTo⟩
    · unfold below at value
      omega
  · rw [rank_eq, Nat.cast_lt]
    refine ⟨fun value' => ?_, percentile_below samples⟩
    obtain ⟨-, value⟩ | ⟨i, inside, -, -, value⟩ | ⟨h, -⟩ := reads n
    · rw [value'] at value
      exact absurd value (by decide)
    · omega
    · exact h
  · have ranks : rankOf n total ≤ rankOf n' total := Nat.div_le_div_right (by gcongr)
    obtain ⟨h', -⟩ | ⟨j, inside', -, upTo', value'⟩ | ⟨-, value'⟩ := reads n'
    · rw [percentile_above samples h', percentile_above samples (ranks.trans h')]
    · obtain ⟨-, value⟩ | ⟨i, -, after, -, value⟩ | ⟨h, -⟩ := reads n
      · rw [value, value', above]
        omega
      · have order : j ≤ i := Nat.le_of_lt_succ (falls.reflect_lt (after.trans_le (ranks.trans upTo')))
        rw [value, value']
        omega
      · exact absurd (falls (Nat.zero_le j)) (Nat.not_le.2 (h.trans_le (ranks.trans upTo')))
    · obtain ⟨-, value⟩ | ⟨i, -, -, -, value⟩ | ⟨-, value⟩ := reads n <;> rw [value, value', below]
      · decide
      · omega

end Sys2Proof.Machine
end

section
/-! PROOFS. Measurement state, interval, thresholds and episodes stay consistent over every step (R72, R75, R102, R112). -/

namespace Sys2Proof.Machine

/-! ### One channel of the monitor -/

/-- What always holds of a channel of the monitor, also between the close of an interval and what follows it. -/
structure MonitorChan.Coherent (m : MonitorChan) : Prop where
  marks : m.warned = true ∨ m.spent = true → m.budget.isSome = true
  episode : m.episode.isSome = true ↔ m.phase ≠ .idle

/-- The same with thresholds and episodes only where an open interval gives them. -/
structure MonitorChan.Sound (isOpen : Bool) (m : MonitorChan) : Prop extends MonitorChan.Coherent m where
  thresholds : m.budget.isSome = true ∨ m.lmax.isSome = true ∨ m.peak.isSome = true → isOpen = true
  limit : m.episode.isSome = true → m.lmax.isSome = true

namespace MonitorChan

variable {m m' : MonitorChan} {isOpen : Bool}

theorem Coherent.dropThresholds (h : m.Coherent) : m.dropThresholds.Coherent :=
  ⟨fun marked => by simp [MonitorChan.dropThresholds] at marked, h.episode⟩

theorem Coherent.atOpening (h : m.Coherent) (cs : ChannelSettings) (acc : Option ChannelAcc) (n : Nat) :
    (MonitorChan.atOpening cs acc n m).Coherent := by
  unfold MonitorChan.atOpening
  cases acc with
  | none => exact h.dropThresholds
  | some a => exact ⟨fun marked => by simp [MonitorChan.openWith] at marked, h.episode⟩

theorem Coherent.closed (h : m.Coherent) : m.closed.Coherent := by
  unfold MonitorChan.closed
  split
  · exact ⟨h.marks, by simp⟩
  · exact h

theorem closed_episode (m : MonitorChan) : m.closed.episode = none := by
  unfold MonitorChan.closed
  split
  · rfl
  next idle => exact idle

theorem closed_lmax (m : MonitorChan) : m.closed.lmax = m.lmax := by
  unfold MonitorChan.closed
  split <;> rfl

theorem closed_thresholds (m : MonitorChan) : (m.closed.budget, m.closed.lmax, m.closed.peak) = (m.budget, m.lmax, m.peak) := by
  unfold MonitorChan.closed
  split <;> rfl

/-- A channel without an episode needs no threshold. -/
theorem Coherent.sound_closed (h : m.Coherent)
    (thresholds : m.budget.isSome = true ∨ m.lmax.isSome = true ∨ m.peak.isSome = true → isOpen = true) :
    m.closed.Sound isOpen := by
  refine { toCoherent := h.closed, thresholds := ?_, limit := fun opened => ?_ }
  · obtain ⟨budget, lmax, peak⟩ : m.closed.budget = m.budget ∧ m.closed.lmax = m.lmax ∧ m.closed.peak = m.peak := by
      simpa using closed_thresholds m
    rw [budget, lmax, peak]
    exact thresholds
  · rw [closed_episode] at opened
    cases opened

theorem Sound.closed (h : m.Sound isOpen) : m.closed.Sound isOpen := h.toCoherent.sound_closed h.thresholds

theorem Coherent.sound_dropped (h : m.Coherent) (isOpen : Bool) : m.dropThresholds.closed.Sound isOpen :=
  h.dropThresholds.sound_closed fun present => by simp [MonitorChan.dropThresholds] at present

/-- A sound channel stays sound with other marks, counts and machine, while these agree and the thresholds stand. -/
theorem Sound.congr (h : m.Sound isOpen)
    (thresholds : (m'.budget, m'.lmax, m'.peak) = (m.budget, m.lmax, m.peak))
    (marks : m'.warned = true ∨ m'.spent = true → m.budget.isSome = true)
    (machine : m'.episode.isSome = true ↔ m'.phase ≠ .idle)
    (opened : m'.episode.isSome = true → m.lmax.isSome = true) : m'.Sound isOpen := by
  simp only [Prod.mk.injEq] at thresholds
  obtain ⟨budget, lmax, peak⟩ := thresholds
  exact { marks := by rwa [budget], episode := machine, thresholds := by rw [budget, lmax, peak]; exact h.thresholds
          limit := by rwa [lmax] }

end MonitorChan

/-! ### The state -/

/-- The invariant by what it goes by. -/
structure Measured (isOpen : Bool) (phase : MeasState) (opening commit : Bool) (monitor : Quad MonitorChan) : Prop where
  interval : isOpen = true ↔ phase = .measuring ∧ opening = false
  commit : commit = true → phase = .measuring
  channels : ∀ c, (monitor.get c).Sound isOpen

/-- The invariant of a state. -/
def MeasuredState (s : State) : Prop :=
  Measured s.interval.isSome s.acc.phase s.acc.openingPending s.store.commitPending s.monitor

theorem measurementHeld_iff (s : State) : MeasurementHeld s ↔ MeasuredState s := by
  constructor
  · rintro ⟨interval, commit, thresholds, marks, episode, limit⟩
    exact ⟨interval, commit, fun c =>
      { marks := marks c, episode := episode c, thresholds := thresholds c, limit := limit c }⟩
  · rintro ⟨interval, commit, channels⟩
    exact ⟨interval, commit, fun c => (channels c).thresholds, fun c => (channels c).marks, fun c => (channels c).episode,
      fun c => (channels c).limit⟩

namespace Measured

variable {isOpen opening commit : Bool} {phase : MeasState} {monitor : Quad MonitorChan}

theorem set_ (h : Measured isOpen phase opening commit monitor) {c : Chan} {m : MonitorChan} (sound : m.Sound isOpen) :
    Measured isOpen phase opening commit (monitor.set c m) :=
  ⟨h.interval, h.commit, fun d => by
    rw [Quad.get_set]
    split
    · exact sound
    · exact h.channels d⟩

end Measured

/-! ### The steps of the monitor -/

theorem MeasuredState.closeEpisode {s : State} (h : MeasuredState s) (c : Chan) (reason : CloseReason) (stamp : Stamp) :
    MeasuredState (s.closeEpisode c reason stamp) := by
  unfold MeasuredState
  rw [closeEpisode_monitor, closeEpisode_interval, closeEpisode_acc, closeEpisode_store]
  exact h.set_ (h.channels c).closed

theorem MeasuredState.peakStep {s : State} (h : MeasuredState s) (c : Chan) : MeasuredState (s.peakStep c) := by
  have sound {m : MonitorChan} (same : (m.budget, m.lmax, m.peak, m.warned, m.spent, m.episode, m.phase) =
      ((s.monitor.get c).budget, (s.monitor.get c).lmax, (s.monitor.get c).peak, (s.monitor.get c).warned,
        (s.monitor.get c).spent, (s.monitor.get c).episode, (s.monitor.get c).phase)) :
      Measured s.interval.isSome s.acc.phase s.acc.openingPending s.store.commitPending (s.monitor.set c m) := by
    simp only [Prod.mk.injEq] at same
    obtain ⟨budget, lmax, peak, warned, spent, episode, phase⟩ := same
    refine h.set_ ((h.channels c).congr ?_ ?_ ?_ ?_)
    · rw [budget, lmax, peak]
    · rw [warned, spent]; exact (h.channels c).marks
    · rw [episode, phase]; exact (h.channels c).episode
    · rw [episode]; exact (h.channels c).limit
  unfold MeasuredState
  rw [peakStep_interval, peakStep_acc, peakStep_store]
  unfold State.peakStep
  dsimp only
  repeat' split
  all_goals try rw [offer_monitor]
  all_goals exact sound rfl

theorem MeasuredState.budgetStep {s : State} (h : MeasuredState s) (c : Chan) : MeasuredState (s.budgetStep c) := by
  unfold MeasuredState
  rw [budgetStep_interval, budgetStep_acc, budgetStep_store]
  unfold State.budgetStep
  split
  · exact h
  next b present =>
    split
    · rw [spendStep_monitor, warnStep_monitor, Quad.set_set, Quad.get_set_same]
      exact h.set_ ((h.channels c).congr rfl (fun _ => by rw [present]; rfl) (h.channels c).episode (h.channels c).limit)
    · exact h

/-- The row of R109 keeps an open machine open. -/
theorem moveOn_open (m : MonitorChan) (yF yr : Nat) (opened : m.phase ≠ .idle) :
    (m.moveOn yF yr).phase ≠ .idle ∧ (m.moveOn yF yr).episode = m.episode ∧
      ((m.moveOn yF yr).budget, (m.moveOn yF yr).lmax, (m.moveOn yF yr).peak, (m.moveOn yF yr).warned,
        (m.moveOn yF yr).spent) = (m.budget, m.lmax, m.peak, m.warned, m.spent) := by
  unfold MonitorChan.moveOn
  repeat' split
  all_goals simp_all

theorem afterBlock_sound {s : State} {c : Chan} {e : Episode} {isOpen : Bool} (h : (s.monitor.get c).Sound isOpen)
    (opened : (s.monitor.get c).episode = some e) : (s.afterBlock c e).Sound isOpen := by
  have active : (s.monitor.get c).phase ≠ .idle := h.episode.1 (by rw [opened]; rfl)
  have limit := h.limit (by rw [opened]; rfl)
  have added (e' : Episode) : ({ s.monitor.get c with episode := some e' } : MonitorChan).Sound isOpen :=
    h.congr rfl h.marks (iff_of_true rfl active) fun _ => limit
  unfold State.afterBlock
  dsimp only
  split
  next t _ =>
    split
    · obtain ⟨e', block⟩ : ∃ e', e' = e.addBlock (s.results c).energy (s.considered c) (s.blockFLevel c) s.handed.report.ended :=
        ⟨_, rfl⟩
      rw [← block]
      obtain ⟨phase, episode, same⟩ := moveOn_open { s.monitor.get c with episode := some e' } (s.results c).yF t.yr active
      simp only [Prod.mk.injEq] at same
      obtain ⟨budget, lmax, peak, warned, spent⟩ := same
      refine (added e').congr (by rw [budget, lmax, peak]) ?_ (iff_of_true (by rw [episode]; rfl) phase) fun _ => limit
      rw [warned, spent]
      exact h.marks
    · exact added _
  · exact added _

theorem MeasuredState.episodeStep {s : State} (h : MeasuredState s) (c : Chan) : MeasuredState (s.episodeStep c) := by
  unfold MeasuredState
  rw [episodeStep_interval, episodeStep_acc, episodeStep_store]
  unfold State.episodeStep
  split
  next e opened =>
    have moved : MeasuredState (s.setMonitor c (s.afterBlock c e)) := h.set_ (afterBlock_sound (h.channels c) opened)
    dsimp only
    split
    · have closed := moved.closeEpisode c .released s.handed.report.ended
      unfold MeasuredState at closed
      rwa [closeEpisode_interval, closeEpisode_acc, closeEpisode_store] at closed
    · exact moved
  next idle =>
    split
    next t limit =>
      split
      · rw [(openEpisode_opens rfl).2.1]
        exact h.set_ ((h.channels c).congr rfl (h.channels c).marks (by simp) fun _ => by rw [limit]; rfl)
      · exact h
    · exact h

/-! ### The boundary operation -/

theorem closed_of_idle {m : MonitorChan} (idle : m.episode = none) : m.closed = m := by
  unfold MonitorChan.closed
  rw [idle]

/-- Closes in any order close the episodes of the channels named, and of no other. -/
theorem eachFreely_monitor {f : Chan → State → State}
    (closes : ∀ c s, (f c s).monitor = s.monitor.set c (s.monitor.get c).closed) (pick : Nat → Nat) (l : List Chan) (s : State)
    (d : Chan) : (s.eachFreely pick l f).monitor.get d =
      if d ∈ l then (s.monitor.get d).closed else s.monitor.get d := by
  have twice (m : MonitorChan) : m.closed.closed = m.closed := closed_of_idle m.closed_episode
  have fold (order : List Chan) (u : State) : (order.foldl (fun u c => f c u) u).monitor.get d =
      if d ∈ order then (u.monitor.get d).closed else u.monitor.get d := by
    induction order generalizing u with
    | nil => rfl
    | cons c rest ih =>
      rw [List.foldl_cons, ih, closes, Quad.get_set]
      by_cases same : d = c
      · subst same
        simp [twice]
      · simp [same]
  refine (fold _ _).trans ?_
  simp only [(anyOrder_perm pick s.choice l).mem_iff]

/-- The closes of every open episode. -/
theorem closeAll_monitor (pick : Nat → Nat) (s : State) (reason : CloseReason) (g : State → Stamp) (d : Chan) :
    (s.eachFreely pick s.openEpisodes fun c u => u.closeEpisode c reason (g u)).monitor.get d = (s.monitor.get d).closed := by
  rw [eachFreely_monitor fun c u => closeEpisode_monitor]
  split
  · rfl
  next idle =>
    rw [mem_openEpisodes, Bool.not_eq_true, Option.isSome_eq_false_iff, Option.isNone_iff_eq_none] at idle
    exact (closed_of_idle idle).symm

theorem closeInterval_monitor (s : State) (iv : Interval) (cause : CloseCause) (d : Chan) :
    (s.closeInterval iv cause).monitor.get d = (s.monitor.get d).dropThresholds := by
  unfold State.closeInterval
  simp [Chan.all]

theorem enterHeld_monitor (pick : Nat → Nat) (s : State) (closed : Option Nat) (d : Chan) :
    (s.enterHeld pick closed).monitor.get d = (s.monitor.get d).closed := by
  unfold State.enterHeld
  dsimp only
  have told := closeAll_monitor pick (State.offer { s with acc := { s.acc with
    phase := .held, holdPending := false, openingPending := false, restartPending := false } } none s.handed.report.ended
    (.holdEntered closed)) .limitRemoved (·.handed.report.ended) d
  rw [offer_monitor] at told
  split
  · rw [commitAtOnce_monitor]
    exact told
  · exact told

theorem enterHeld_acc (pick : Nat → Nat) (s : State) (closed : Option Nat) :
    (s.enterHeld pick closed).acc.phase = .held ∧ (s.enterHeld pick closed).acc.openingPending = false := by
  unfold State.enterHeld
  dsimp only
  split
  · rw [commitAtOnce_acc]
    simp
  · simp

theorem atBoundary_commitPending (st : Store) : st.atBoundary.commitPending = false := by
  unfold Store.atBoundary
  split
  · rfl
  next none => exact Bool.eq_false_iff.2 none

/-- Entering HELD with no interval open, from a monitor whose closed channels are sound. -/
theorem measured_enterHeld (pick : Nat → Nat) (s : State) (closed : Option Nat) (interval : s.interval = none)
    (channels : ∀ c, (s.monitor.get c).closed.Sound false) : MeasuredState (s.enterHeld pick closed) := by
  obtain ⟨phase, opening⟩ := enterHeld_acc pick s closed
  unfold MeasuredState
  rw [enterHeld_interval, enterHeld_store, phase, opening, interval, atBoundary_commitPending]
  exact ⟨by simp, (nomatch ·), fun c => by rw [enterHeld_monitor]; exact channels c⟩

/-- The closes of an opening leave episodes only where there is an Lmax limit (R112). -/
theorem closeUnlimited_sound (pick : Nat → Nat) {s : State} {c : Chan} (coherent : (s.monitor.get c).Coherent) :
    ((s.closeUnlimited pick).monitor.get c).Sound true := by
  unfold State.closeUnlimited
  rw [eachFreely_monitor fun c u => closeEpisode_monitor]
  split
  · exact coherent.sound_closed fun _ => rfl
  next kept =>
    rw [List.mem_filter, mem_openEpisodes] at kept
    refine { toCoherent := coherent, thresholds := fun _ => rfl, limit := fun opened => ?_ }
    by_contra none
    exact kept ⟨opened, by simpa using none⟩

theorem measured_openInterval (pick : Nat → Nat) (s : State) (clamps : Quad Nat) (applied : Bool)
    (commit : s.store.commitPending = false) (channels : ∀ c, (s.monitor.get c).Coherent) :
    MeasuredState (s.openInterval pick clamps applied) := by
  unfold MeasuredState State.openInterval
  dsimp only
  rw [closeUnlimited_interval, closeUnlimited_acc, closeUnlimited_store]
  refine ⟨iff_of_true rfl ⟨rfl, rfl⟩, fun pending => absurd (commit.symm.trans pending) (by decide), fun c => ?_⟩
  refine closeUnlimited_sound pick ?_
  dsimp only
  rw [Quad.get_mapWith]
  exact (channels c).atOpening _ _ _

theorem measured_enterMeasuring (pick : Nat → Nat) (s : State) (channels : ∀ c, (s.monitor.get c).Coherent) :
    MeasuredState (s.enterMeasuring pick) := by
  unfold State.enterMeasuring
  split
  · refine measured_openInterval pick _ _ true (by rw [applyCommit_store]; rfl) fun c => ?_
    rw [applyCommit_monitor]
    exact channels c
  next none => exact measured_openInterval pick _ _ false (Bool.eq_false_iff.2 none) channels

theorem MeasuredState.boundaryStep {s : State} (h : MeasuredState s) (pick : Nat → Nat) : MeasuredState (s.boundaryStep pick) := by
  unfold State.boundaryStep
  split
  next iv _ =>
    split
    next cause _ =>
      dsimp only
      split
      · refine measured_enterHeld pick _ _ rfl fun c => ?_
        rw [closeInterval_monitor]
        exact (h.channels c).toCoherent.sound_dropped false
      · refine measured_enterMeasuring pick _ fun c => ?_
        rw [closeInterval_monitor]
        exact (h.channels c).toCoherent.dropThresholds
    · exact h
  next none =>
    have channels (c : Chan) := (h.channels c).closed
    rw [none] at channels
    split
    · unfold State.openingBoundary
      split
      · refine measured_enterHeld pick _ _ ?_ fun c => ?_
        · split
          · exact none
          · exact none
        · split
          · exact channels c
          · exact channels c
      · exact measured_enterMeasuring pick s fun c => (h.channels c).toCoherent
    · split
      · exact h
      · exact h

/-! ### The step -/

theorem softReset_closed (m : MonitorChan) : m.closed.softReset.episode = none := m.closed_episode

theorem softReset_sound {m : MonitorChan} (h : m.Coherent) : m.closed.softReset.Sound false := by
  have coherent := h.closed.dropThresholds
  refine { marks := coherent.marks, episode := coherent.episode, thresholds := fun present => ?_, limit := fun opened => ?_ }
  · simp [MonitorChan.softReset, MonitorChan.dropThresholds] at present
  · rw [softReset_closed] at opened
    cases opened

theorem resetOffers_monitor (pick : Nat → Nat) (s : State) (d : Chan) :
    (s.resetOffers pick).monitor.get d = (s.monitor.get d).closed := by
  unfold State.resetOffers
  rw [cutCheck_monitor, resetCapture_monitor]
  exact closeAll_monitor pick s .reset (·.clock.now) d

theorem measured_softReset {s : State} (h : MeasuredState s) (body : List Byte) :
    MeasuredState (softResetRule Config.pick body s).state := by
  have monitor (c : Chan) : ((softResetRule Config.pick body s).state.monitor.get c) = (s.monitor.get c).closed.softReset := by
    rw [softResetRule_state]
    unfold State.resetUnits
    dsimp only
    rw [Quad.get_mapWith, withoutChoosing_monitor, resetOffers_monitor]
    rfl
  unfold MeasuredState
  refine ⟨?_, ?_, fun c => ?_⟩
  · rw [softResetRule_frame]
    cases s.clock.isSet <;> simp [Accumulator.softReset]
  · rw [softResetRule_frame]
    exact (nomatch ·)
  · rw [monitor, softResetRule_frame]
    exact softReset_sound (h.channels c).toCoherent

theorem measured_keptBy (i : Instr) : KeptBy MeasuredState MeasuredState i := by
  have block : BlockKept MeasuredState := {
    weigh := fun s c h => by rw [handBlock_frame]; exact h
    clock := fun s h => by rw [clockStep_frame]; exact h
    engine := fun s h => by
      rw [engineStep_frame]
      unfold MeasuredState
      dsimp only
      obtain e | ⟨c, k, -, -, -, e⟩ := engineStep_store s <;> rw [e] <;> exact h
    accumulate := fun s h => by
      have same : s.accumulateStep.interval.isSome = s.interval.isSome := by
        unfold State.accumulateStep
        split
        · rfl
        next opened => rw [opened]; rfl
      rw [accumulateStep_frame]
      unfold MeasuredState
      dsimp only
      rw [same]
      exact h
    peak := fun s c h => h.peakStep c
    budget := fun s c h => h.budgetStep c
    episode := fun s c h => h.episodeStep c
    boundary := fun s h => h.boundaryStep Config.pick }
  have rules : RuleKept MeasuredState i := {
    softReset := fun s body h => measured_softReset h body
    unopen := fun s held h => ⟨by rw [h.interval]; simp [held], h.commit, h.channels⟩
    reopen := fun s held h => ⟨by rw [h.interval]; simp [held], h.commit, h.channels⟩
    commit := fun s _ measuring h => ⟨h.interval, fun _ => measuring, h.channels⟩
    commitNow := fun s _ idle h => by
      unfold MeasuredState
      rw [commitAtOnce_interval, commitAtOnce_acc, commitAtOnce_store, commitAtOnce_monitor]
      exact ⟨h.interval, (nomatch ·), h.channels⟩
    discard := fun s h => ⟨h.interval, (nomatch ·), h.channels⟩
    startCheck := fun s _ p _ _ _ h => by
      have closed (u : State) (hu : MeasuredState u) (r : RangeCtl) :
          MeasuredState ((u.closeEpisode p.chan .check u.clock.now).setRange p.chan r) :=
        hu.closeEpisode p.chan .check u.clock.now
      exact closed _ (by exact h) _
    abortCheck := fun s h => by
      unfold MeasuredState
      rw [cutCheck_interval, cutCheck_acc, cutCheck_store, cutCheck_monitor]
      exact h }
  exact {
    powerOn := fun _ _ _ _ _ => by
      have reset := (measurementHeld_iff _).1 reset_measurementHeld
      exact reset
    finish := block.finish
    upTo := block.upTo
    stall := fun s _ _ h => by
      unfold State.enterStalled
      refine eachFreely_keeps MeasuredState Config.pick _ _ (fun _ _ hu => hu) (fun x _ u hu => ?_) _ ?_
      · cases x with
        | closeEpisode c => exact hu.closeEpisode c .stalled u.clock.now
        | endCheck =>
          unfold MeasuredState StallEffect.take
          dsimp only
          rw [cutCheck_interval, cutCheck_acc, cutCheck_store, cutCheck_monitor]
          exact hu
      · rw [markGap_frame, offer_frame]
        unfold MeasuredState
        dsimp only
        rw [Option.isSome_map]
        exact h
    rule := RuleKept.send rules fun s kind tag body h => by rw [reply_frame]; exact h }

/-- Settles O11: the closes of the boundary operation and of a soft reset leave no episode without a limit. -/
theorem measurementHeldByStep : Obligations.MeasurementHeldByStep := by
  intro s t held h
  exact (measurementHeld_iff t).2
    (step_keeps (P := MeasuredState) (fun _ _ hs => hs) measured_keptBy ((measurementHeld_iff s).1 held) h)

end Sys2Proof.Machine
end

section
/-! PROOFS. The interval record: its levels, counts and flags (R96, R97), and its 116 bytes (R186). -/

namespace Sys2Proof.Machine

/-! ### The flags field -/

theorem testBit_cons_zero (b : Bool) (n : Nat) : (b.toNat + 2 * n).testBit 0 = b := by
  cases b <;> simp

theorem testBit_cons_succ (b : Bool) (n i : Nat) : (b.toNat + 2 * n).testBit (i + 1) = n.testBit i := by
  rw [Nat.testBit_succ, show (b.toNat + 2 * n) / 2 = n by cases b <;> simp; omega]

/-- The flags from bit 0 upward (R186). -/
def RecordFlags.bits (f : RecordFlags) : List Bool :=
  [f.isPartial, f.gap, f.overload, f.saturated, f.fSettling, f.check, f.leqExceeded, f.lmaxExceeded, f.peakExceeded,
    f.budgetWarned, f.noEntry, f.configApplied, f.clockSet, f.holdFollows]

/-- The number with these bits from bit 0 upward. -/
def ofBits : List Bool → Nat
  | [] => 0
  | b :: bs => b.toNat + 2 * ofBits bs

theorem testBit_ofBits (bs : List Bool) (i : Nat) : (ofBits bs).testBit i = bs.getD i false := by
  induction bs generalizing i with
  | nil => exact Nat.zero_testBit i
  | cons b bs ih =>
    cases i with
    | zero => exact testBit_cons_zero b _
    | succ i => exact (testBit_cons_succ b _ i).trans (ih i)

theorem pack_eq (f : RecordFlags) : f.pack = BitVec.ofNat 16 (ofBits f.bits) := by
  refine congrArg (BitVec.ofNat 16) ?_
  simp only [RecordFlags.bits, ofBits]
  ring

/-- A bit of the flags field is its rule's condition (R97, R186). -/
theorem pack_getLsbD (f : RecordFlags) {i : Nat} (h : i < 16) : f.pack.getLsbD i = f.bits.getD i false := by
  rw [pack_eq, BitVec.getLsbD_ofNat, testBit_ofBits, decide_eq_true h, Bool.true_and]

/-! ### The record -/

theorem exceeds_eq (limit : Option Int) (l : Int) : exceeds limit l = limit.any fun y => decide (y < l) := by
  cases limit <;> rfl

theorem extremeLevel_some (f : Nat → Int) (y : Nat) : extremeLevel f (some y) = f y := rfl

theorem budgetUsed_some (b : BudgetThreshold) (sum : Nat) :
    (b.b = 0 → budgetUsed (some b) sum = if sum = 0 then 0 else 65535) ∧
      (0 < b.b → budgetUsed (some b) sum = min 65535 (1000 * sum / b.b)) :=
  ⟨fun none => if_pos none, fun some_ => if_neg some_.ne'⟩

/-- The bytes of the limits that are present (R186). -/
theorem limit_bits (limits : Limits) :
    u8 (limits.leq.isSome.toNat + 2 * limits.lmax.isSome.toNat + 4 * limits.peak.isSome.toNat) =
      u8 ((if limits.leq.isSome = true then 1 else 0) + (if limits.lmax.isSome = true then 2 else 0) +
        (if limits.peak.isSome = true then 4 else 0)) := by
  cases limits.leq.isSome <;> cases limits.lmax.isSome <;> cases limits.peak.isSome <;> rfl

/-- Fields laid one behind another, each with its offset. -/
def laidFrom (n : Nat) : List (List Byte) → List (Nat × List Byte)
  | [] => []
  | p :: ps => (n, p) :: laidFrom (n + p.length) ps

theorem read_laidFrom (ps : List (List Byte)) (pre : List Byte) :
    ∀ f ∈ laidFrom pre.length ps, ((pre ++ ps.flatten).drop f.1).take f.2.length = f.2 := by
  induction ps generalizing pre with
  | nil => exact fun _ h => absurd h List.not_mem_nil
  | cons p ps ih =>
    refine List.forall_mem_cons.2 ⟨?_, fun f mem => ?_⟩
    · dsimp only
      rw [List.drop_left, List.flatten_cons, List.take_left]
    · have read := ih (pre ++ p) f (by rwa [List.length_append])
      rwa [List.append_assoc] at read

/-- The fields of a record, in their order (R186). -/
def recordFields (r : IntervalRecord) : List (List Byte) :=
  [u32 r.number, u8 r.chan.number, stampBytes r.openTime, stampBytes r.closeTime, u8 r.cause.code, u8 r.entry.code,
    u8 (r.limits.leq.isSome.toNat + 2 * r.limits.lmax.isSome.toNat + 4 * r.limits.peak.isSome.toNat),
    limitField r.limits.leq, limitField r.limits.lmax, limitField r.limits.peak, u32 r.n, u32 r.active, u32 r.quiet,
    u32 r.transition, u32 r.excluded, i16 r.leq, i16 r.leqActive, i16 r.leqQuiet, i16 r.site, i16 r.lfMax, i16 r.lfMin,
    i16 r.lsMax, i16 r.lpk, i16 r.p1, i16 r.p2, i16 r.p3, u8 r.n1, u8 r.n2, u8 r.n3, u32 r.overloadBlocks,
    u32 r.settlingSamples, u32 r.saturations, u32 r.gainChanges, u32 r.peaksOver, u32 r.episodesOpened, u32 r.histSamples,
    u32 r.strikes, u16 r.budgetUsed, u8 r.finalGain, u16 r.flags.toNat]

theorem recordBytes_eq (r : IntervalRecord) : recordBytes r = (recordFields r).flatten := by
  unfold recordBytes recordFields
  simp only [List.flatten_cons, List.flatten_nil, List.append_assoc, List.append_nil]

theorem recordBytes_read (r : IntervalRecord) :
    ∀ f ∈ laidFrom 0 (recordFields r), ((recordBytes r).drop f.1).take f.2.length = f.2 := by
  rw [recordBytes_eq]
  exact read_laidFrom (recordFields r) []

/-! ### A block in the accumulators (R93 to R95) -/

theorem maxOf_eq (m : Option Nat) (x : Nat) : maxOf m x = some (max (m.getD 0) x) := by
  cases m with
  | none => exact congrArg some (Nat.zero_max x).symm
  | some y => rfl

theorem minOf_eq (m : Option Nat) (x : Nat) : minOf m x = some (min (m.getD x) x) := by
  cases m with
  | none => exact congrArg some (min_self x).symm
  | some y => rfl

section Block

variable {a : ChannelAcc} {k : Int} {h0 : Nat} {x : BlockResults} {cls : BlockClass}

theorem addEnergy_included (e : Nat) (included : cls ≠ .excluded) :
    a.addEnergy e cls = { a with
      sum := a.sum + e
      sumActive := if cls = .active then a.sumActive + e else a.sumActive
      active := if cls = .active then a.active + 1 else a.active
      sumQuiet := if cls = .quiet then a.sumQuiet + e else a.sumQuiet
      quiet := if cls = .quiet then a.quiet + 1 else a.quiet
      transition := if cls = .transition then a.transition + 1 else a.transition } := by
  cases cls with
  | excluded => exact absurd rfl included
  | active | quiet | transition => rfl

/-- Where a sample of the histogram falls (R53). -/
theorem placeSample_placed (h0 : Nat) (l : Int) (a : ChannelAcc) : ∃ u o b,
    a.placeSample h0 l = { a with histSamples := bump max32 a.histSamples, underflow := u, overflow := o, bins := b } ∧
    (l < h0 → u = a.underflow + 1 ∧ o = a.overflow ∧ b = a.bins) ∧
    ((h0 : Int) + 12000 ≤ l → u = a.underflow ∧ o = a.overflow + 1 ∧ b = a.bins) ∧
    ((h0 : Int) ≤ l → l < (h0 : Int) + 12000 → u = a.underflow ∧ o = a.overflow ∧ ∀ i : Fin 240, b[i] =
      if (h0 : Int) + 50 * i.val ≤ l ∧ l < (h0 : Int) + 50 * i.val + 50 then a.bins[i] + 1 else a.bins[i]) := by
  have bin : histogramBin h0 l = (l - h0) / 50 := rfl
  unfold ChannelAcc.placeSample
  dsimp only
  split
  next low =>
    exact ⟨_, _, _, rfl, fun _ => ⟨rfl, rfl, rfl⟩, fun _ => by omega, fun _ _ => by omega⟩
  next =>
    split
    next high =>
      exact ⟨_, _, _, rfl, fun _ => by omega, fun _ => ⟨rfl, rfl, rfl⟩, fun _ _ => by omega⟩
    next =>
      refine ⟨_, _, _, rfl, fun _ => by omega, fun _ => by omega, fun low high => ⟨rfl, rfl, fun i => ?_⟩⟩
      obtain ⟨j, found⟩ : ∃ j : Nat, histogramBin h0 l = j := ⟨_, (Int.toNat_of_nonneg (by omega)).symm⟩
      have inside : j < 240 := by omega
      have count : a.bins.toList.getD j 0 = a.bins[j] := by
        rw [List.getD_eq_getElem _ _ (by simpa using inside)]
        exact Vector.getElem_toList _
      rw [found, Int.toNat_natCast, count]
      have same : ((h0 : Int) + 50 * i.val ≤ l ∧ l < (h0 : Int) + 50 * i.val + 50) ↔ j = i.val := by omega
      rw [Fin.getElem_fin, Vector.getElem_setIfInBounds]
      by_cases here : j = i.val
      · subst here
        simp [same]
      · rw [if_neg (fun both => here (same.1 both)), if_neg here]
        rfl

/-- What an included block with F unsettled leaves of the extremes (R94). -/
theorem addExtremes_unsettled (unsettled : x.fSettled = false) :
    a.addExtremes k h0 x = { a with
      maxPeak := some (max (a.maxPeak.getD 0) x.peak)
      maxS := if x.sSettled = true then some (max (a.maxS.getD 0) x.yS) else a.maxS
      fSettling := true } := by
  unfold ChannelAcc.addExtremes
  rw [unsettled]
  cases x.sSettled <;> simp [maxOf_eq]

/-- An included block with F settled (R94). -/
theorem addExtremes_settled (settled : x.fSettled = true) :
    a.addExtremes k h0 x = ChannelAcc.sampleHistogram h0 (level k x.yF 48) { a with
      maxPeak := some (max (a.maxPeak.getD 0) x.peak)
      maxS := if x.sSettled = true then some (max (a.maxS.getD 0) x.yS) else a.maxS
      maxF := some (max (a.maxF.getD 0) x.yF)
      minF := some (min (a.minF.getD x.yF) x.yF) } := by
  unfold ChannelAcc.addExtremes detectorLevel
  rw [settled]
  cases x.sSettled <;> simp [maxOf_eq, minOf_eq]

theorem addBlock_added : BlockAdded k h0 x cls a (a.addBlock k h0 x cls) := by
  by_cases excluded : cls = .excluded
  · subst excluded
    exact ⟨rfl, rfl, rfl, fun _ => rfl, fun included => absurd rfl included⟩
  have whole : a.addBlock k h0 x cls = (((a.addEnergy x.energy cls).addGain x).addExtremes k h0 x).addCounts x :=
    if_neg excluded
  have flag (b : Bool) : b.toNat = if b = true then 1 else 0 := by cases b <;> rfl
  rw [whole, addEnergy_included x.energy excluded]
  unfold ChannelAcc.addGain ChannelAcc.addCounts
  dsimp only
  cases settled : x.fSettled with
  | false =>
    rw [addExtremes_unsettled settled, flag]
    refine ⟨rfl, rfl, rfl, fun h => absurd h excluded, fun _ => ⟨rfl, rfl, rfl, rfl, rfl, rfl, rfl, rfl, rfl, rfl, rfl, rfl,
      fun _ => ⟨rfl, rfl, rfl, rfl, rfl, rfl, rfl, rfl⟩, fun h => ?_⟩⟩
    rw [settled] at h
    cases h
  | true =>
    rw [addExtremes_settled settled, flag]
    unfold ChannelAcc.sampleHistogram
    dsimp only
    have notUnsettled : ¬x.fSettled = false := by rw [settled]; decide
    by_cases sampled : 100 ≤ a.samplingCounter + 1
    · rw [if_pos sampled]
      obtain ⟨u, o, b, placed, low, high, inside⟩ := placeSample_placed h0 (level k x.yF 48) { a with
        sum := a.sum + x.energy
        sumActive := if cls = .active then a.sumActive + x.energy else a.sumActive
        active := if cls = .active then a.active + 1 else a.active
        sumQuiet := if cls = .quiet then a.sumQuiet + x.energy else a.sumQuiet
        quiet := if cls = .quiet then a.quiet + 1 else a.quiet
        transition := if cls = .transition then a.transition + 1 else a.transition
        gainChanges := addUpTo max32 a.gainChanges x.gainChanges, finalGain := x.gain
        maxPeak := some (max (a.maxPeak.getD 0) x.peak)
        maxS := if x.sSettled = true then some (max (a.maxS.getD 0) x.yS) else a.maxS
        maxF := some (max (a.maxF.getD 0) x.yF)
        minF := some (min (a.minF.getD x.yF) x.yF)
        samplingCounter := 0 }
      rw [placed]
      exact ⟨rfl, rfl, rfl, fun h => absurd h excluded, fun _ => ⟨rfl, rfl, rfl, rfl, rfl, rfl, rfl, rfl, rfl, rfl, rfl, rfl,
        fun h => absurd h notUnsettled, fun _ => ⟨rfl, rfl, rfl, fun h => by omega,
          fun _ => ⟨rfl, rfl, low, high, inside⟩⟩⟩⟩
    · rw [if_neg sampled]
      exact ⟨rfl, rfl, rfl, fun h => absurd h excluded, fun _ => ⟨rfl, rfl, rfl, rfl, rfl, rfl, rfl, rfl, rfl, rfl, rfl, rfl,
        fun h => absurd h notUnsettled, fun _ => ⟨rfl, rfl, rfl, fun _ => ⟨rfl, rfl, rfl, rfl, rfl⟩,
          fun h => absurd h sampled⟩⟩⟩

end Block

/-! ### One step of a block end among the others -/

/-- What the other steps due may change and the property of the state before and after one step `t` do not meet: a property
`P` that the steps before keep, and `Q` that `t` makes of it and the steps behind keep. -/
theorem finishBlock_through {P Q : State → Prop} {s : State} {l : List Task} {t : Task} (due : s.blockWork = some l)
    (nodup : l.Nodup) (mem : t ∈ l) (start : ∀ n, P { s with choice := n }) (work : ∀ u w, P u → P { u with blockWork := w })
    (work' : ∀ u w, Q u → Q { u with blockWork := w })
    (before : ∀ x ∈ l, x ≠ t → t.before x = false → ∀ u, P u → P (runTask Config.pick x u))
    (take : ∀ u, P u → Q (runTask Config.pick t u))
    (behind : ∀ x ∈ l, x ≠ t → x.before t = false → ∀ u, Q u → Q (runTask Config.pick x u)) :
    ∃ u, Q u ∧ s.finishBlock Config.pick = u.endOfBlock := by
  obtain ⟨order, perm, ordered, same⟩ := finishBlock_order Config.pick s l due
  obtain ⟨pre, post, rfl, early, late⟩ := step_between (perm.mem_iff.2 mem) ordered
  have inside {x : Task} (hx : x ∈ pre ∨ x ∈ post) : x ∈ l :=
    perm.mem_iff.1 (List.mem_append.2 (hx.imp_right (List.mem_cons_of_mem t)))
  have apart {x : Task} (hx : x ∈ pre ∨ x ∈ post) : x ≠ t := by
    have distinct := perm.nodup_iff.2 nodup
    rw [List.nodup_middle, List.nodup_cons, List.mem_append] at distinct
    exact fun e => distinct.1 (e ▸ hx)
  refine ⟨_, ?_, same⟩
  rw [runTasks_append]
  have reached := runTasks_keeps P Config.pick work pre
    (fun x hx => before x (inside (.inl hx)) (apart (.inl hx)) (early x hx)) _ (start (s.choice + l.length))
  exact runTasks_keeps Q Config.pick work' post
    (fun x hx => behind x (inside (.inr hx)) (apart (.inr hx)) (late x hx)) _ (take _ (work _ _ reached))

/-- The steps that hand nothing on leave what was handed. -/
theorem runTask_handed {t : Task} {s : State} (clock : t ≠ .clock) (classify : t ≠ .classify) (weigh : ∀ c, t ≠ .weigh c) :
    (runTask Config.pick t s).handed = s.handed := by
  cases t with
  | clock => exact absurd rfl clock
  | classify => exact absurd rfl classify
  | weigh c => exact absurd rfl (weigh c)
  | boundary => exact boundaryStep_handed s Config.pick
  | _ => simp [runTask]

/-- The open interval changes by the accumulator and the boundary operation alone. -/
theorem runTask_interval {t : Task} {s : State} (accumulate : t ≠ .accumulate) (boundary : t ≠ .boundary) :
    (runTask Config.pick t s).interval = s.interval := by
  cases t with
  | accumulate => exact absurd rfl accumulate
  | boundary => exact absurd rfl boundary
  | _ => simp [runTask]

/-- The open interval with a block that has ended added by its class (R92 to R95). -/
def Interval.withBlock (iv : Interval) (a : Settings) (h : Handed) : Interval :=
  { iv with
    strikes := iv.strikes + h.strike.toNat
    accs := iv.accs.mapWith fun c acc =>
      acc.map fun ac => ac.addBlock (a.chan.get c).k (a.chan.get c).h0 (h.results.get c) (h.classes.get c) }

theorem accumulateStep_interval_some {s : State} {iv : Interval} (opened : s.interval = some iv) :
    s.accumulateStep.interval = some (iv.withBlock s.active s.handed) := by
  unfold State.accumulateStep
  rw [opened]
  rfl

/-- The block is added among the steps due, where no boundary follows. -/
theorem finishBlock_accumulates {s : State} {l : List Task} {iv : Interval} (due : s.blockWork = some l) (nodup : l.Nodup)
    (mem : .accumulate ∈ l) (opened : s.interval = some iv) :
    ∃ t, s.finishBlock Config.pick = t ∧ ((.boundary ∈ l → NoBoundary { s with handed := t.handed }) →
      t.interval = some (iv.withBlock s.store.active t.handed)) := by
  suffices through : ∃ u : State, ((.boundary ∈ l → NoBoundary { s with handed := u.handed }) →
      u.interval = some (iv.withBlock s.store.active u.handed) ∧ u.boundaryFlags = s.boundaryFlags) ∧
      s.finishBlock Config.pick = u.endOfBlock by
    obtain ⟨u, added, same⟩ := through
    exact ⟨_, same, fun none => (added none).1⟩
  refine finishBlock_through (P := fun u => u.interval = some iv ∧ u.boundaryFlags = s.boundaryFlags)
    due nodup mem (fun _ => ⟨opened, rfl⟩) (fun _ _ h => h) (fun _ _ h => h)
    (fun x _ apart early u h => ?_) (fun u h _ => ?_) (fun x hx apart late u h none => ?_)
  · obtain ⟨interval, flags⟩ := h
    have boundary : x ≠ .boundary := fun e => by rw [e] at early; cases early
    exact ⟨(runTask_interval apart boundary).trans interval, (runTask_boundaryFlags boundary).trans flags⟩
  · obtain ⟨interval, flags⟩ := h
    have active : u.active = s.store.active := congrArg Prod.fst flags
    refine ⟨?_, (runTask_boundaryFlags (by decide)).trans flags⟩
    rw [runTask_handed (by decide) (by decide) fun c => by simp, ← active]
    exact accumulateStep_interval_some interval
  · have handed : (runTask Config.pick x u).handed = u.handed :=
      runTask_handed (fun e => by rw [e] at late; cases late) (fun e => by rw [e] at late; cases late)
        fun c e => by rw [e] at late; cases late
    rw [handed] at none ⊢
    obtain ⟨interval, flags⟩ := h none
    by_cases boundary : x = .boundary
    · subst boundary
      have stays : runTask Config.pick .boundary u = u :=
        boundaryStep_of_none (noBoundary_congr (s := s) (v := u) flags rfl (none hx)) Config.pick
      rw [stays]
      exact ⟨interval, flags⟩
    · exact ⟨(runTask_interval apart boundary).trans interval, (runTask_boundaryFlags boundary).trans flags⟩

/-- Settles O36: the block added among the steps due, and the record read field by field. -/
theorem recordCarriesFlags : Obligations.RecordCarriesFlags := by
  refine ⟨fun s l iv due nodup mem opened => ?_, fun iv c ac set_ mode m close cause hold => ?_⟩
  · obtain ⟨t, run, added⟩ := finishBlock_accumulates due nodup mem opened
    refine ⟨t, exec_blockEnd run, fun none => ⟨_, added none, ?_, fun c => ⟨fun absent => ?_, fun a present => ⟨_, ?_, addBlock_added⟩⟩⟩⟩
    · have flag (b : Bool) : b.toNat = if b = true then 1 else 0 := by cases b <;> rfl
      rw [← flag]
      rfl
    · exact (Quad.get_mapWith _ _ c).trans (congrArg _ absent)
    · exact (Quad.get_mapWith _ _ c).trans (congrArg _ present)
  · intro r above'
    have bit {i : Nat} (h : i < 16) : r.flags.getLsbD i = _ := pack_getLsbD _ h
    have read := recordBytes_read r
    simp only [recordFields, limit_bits, laidFrom, u8_length, u16_length, u32_length, i16_length, limitField_length,
      stampBytes_length, Nat.reduceAdd] at read
    refine ⟨rfl, rfl, rfl, rfl, rfl, rfl, rfl, rfl, rfl, rfl, fun y some_ => ?_, fun none => ?_, fun p some_ => ?_, fun none => ?_,
      bit (by decide), bit (by decide), bit (by decide), bit (by decide), bit (by decide), bit (by decide),
      (bit (by decide)).trans (exceeds_eq _ _), (bit (by decide)).trans (exceeds_eq _ _), (bit (by decide)).trans (exceeds_eq _ _),
      bit (by decide), bit (by decide), bit (by decide), bit (by decide), bit (by decide), bit (by decide), bit (by decide),
      rfl, rfl, rfl, rfl, rfl, rfl, fun y some_ => ?_, fun none => ?_, fun y some_ => ?_, fun none => ?_, ⟨rfl, rfl, rfl⟩,
      rfl, rfl, rfl, rfl, rfl, rfl, rfl, rfl, rfl, rfl, rfl, rfl, fun none => ?_, fun b some_ => ?_, recordBytes_length r, ?_⟩
    · exact congrArg (extremeLevel _) some_
    · exact congrArg (extremeLevel _) none
    · exact congrArg (extremeLevel _) some_
    · exact congrArg (extremeLevel _) none
    · exact congrArg (extremeLevel _) some_
    · exact congrArg (extremeLevel _) none
    · exact congrArg (extremeLevel _) some_
    · exact congrArg (extremeLevel _) none
    · exact congrArg (budgetUsed · ac.sum) none
    · rw [show r.budgetUsed = budgetUsed (some b) ac.sum from congrArg (budgetUsed · ac.sum) some_]
      exact budgetUsed_some b ac.sum
    · exact read

end Sys2Proof.Machine
end

section
/-! PROOFS. What a step of the block end does depends on those still due by one thing alone: whether the capture step of a
channel whose episode closes is among them (R134, log entry 5). -/

namespace Sys2Proof.Machine

/-- `s` with another list of steps still due. -/
def State.withWork (s : State) (w : Option (List Task)) : State := { s with blockWork := w }

/-- What an operation does depends on the steps still due in no way. -/
def Blind (f : State → State) : Prop := ∀ s w, f (s.withWork w) = (f s).withWork w

theorem transmit_blind : Blind State.transmit := by
  intro s w
  unfold State.transmit
  dsimp only [State.withWork]
  repeat' split
  all_goals rfl

theorem offer_blind (c : Option Chan) (stamp : Stamp) (body : EventBody) : Blind (·.offer c stamp body) := by
  intro s w
  dsimp only [State.offer]
  rw [show (s.withWork w).report = s.report from rfl]
  split
  · exact transmit_blind { s with report := s.report.enqueue ⟨c, stamp, body⟩ } w
  · rfl

/-- The record FIFO with a place for one record more (R98). -/
def State.madeRoom (s : State) (stamp : Stamp) : State :=
  match s.fifo with
  | oldest :: rest =>
    if Config.fifoSize ≤ s.fifo.length then
      let lost := bump 65535 s.recordsLost
      State.offer { s with fifo := rest, recordsLost := lost } none stamp (.recordsLost oldest.number oldest.chan lost)
    else s
  | [] => s

theorem putRecord_eq (s : State) (stamp : Stamp) (r : IntervalRecord) :
    s.putRecord stamp r = State.transmit { s.madeRoom stamp with fifo := (s.madeRoom stamp).fifo ++ [r] } := rfl

theorem madeRoom_blind (stamp : Stamp) : Blind (·.madeRoom stamp) := by
  intro s w
  dsimp only [State.madeRoom]
  rw [show (s.withWork w).fifo = s.fifo from rfl, show (s.withWork w).recordsLost = s.recordsLost from rfl]
  split
  next oldest rest _ =>
    split
    · exact offer_blind _ _ _ { s with fifo := rest, recordsLost := bump 65535 s.recordsLost } w
    · rfl
  · rfl

theorem putRecord_blind (stamp : Stamp) (r : IntervalRecord) : Blind (·.putRecord stamp r) := by
  intro s w
  dsimp only
  rw [putRecord_eq, putRecord_eq, show (s.withWork w).madeRoom stamp = (s.madeRoom stamp).withWork w from madeRoom_blind stamp s w]
  exact transmit_blind { s.madeRoom stamp with fifo := (s.madeRoom stamp).fifo ++ [r] } w

/-! ### The steps without a close -/

theorem clockStep_blind : Blind State.clockStep := by
  intro s w
  unfold State.clockStep
  rw [show (s.withWork w).clock = s.clock from rfl]
  split <;> rfl

theorem accumulateStep_blind : Blind State.accumulateStep := by
  intro s w
  unfold State.accumulateStep
  rw [show (s.withWork w).interval = s.interval from rfl]
  split <;> rfl

theorem liveStep_blind : Blind State.liveStep := by
  intro s w
  dsimp only [State.liveStep]
  rw [show (s.withWork w).takeImage = s.takeImage.withWork w from rfl,
    show (s.takeImage.withWork w).report = s.takeImage.report from rfl]
  split
  · split
    · obtain ⟨u, u_eq⟩ : ∃ u : State, u = { s.takeImage with report := { s.takeImage.report with liveCounter := 0 } } := ⟨_, rfl⟩
      have formed := transmit_blind { u with report := { u.report with
        liveSlot := some u.liveReport
        liveOverwritten :=
          if u.report.liveSlot.isSome then bump 65535 u.report.liveOverwritten else u.report.liveOverwritten } } w
      rw [u_eq] at formed
      exact formed
    · rfl
  · rfl

theorem warnStep_blind (c : Chan) (b : BudgetThreshold) (sum : Nat) : Blind (·.warnStep c b sum) := by
  intro s w
  dsimp only [State.warnStep]
  rw [show (s.withWork w).monitor = s.monitor from rfl]
  split
  · exact offer_blind _ _ _ (s.setMonitor c { s.monitor.get c with warned := true }) w
  · rfl

theorem spendStep_blind (c : Chan) (b : BudgetThreshold) (sum : Nat) : Blind (·.spendStep c b sum) := by
  intro s w
  dsimp only [State.spendStep]
  rw [show (s.withWork w).monitor = s.monitor from rfl]
  split
  · exact offer_blind _ _ _ (s.setMonitor c { s.monitor.get c with spent := true }) w
  · rfl

theorem budgetStep_blind (c : Chan) : Blind (·.budgetStep c) := by
  intro s w
  dsimp only [State.budgetStep]
  rw [show (s.withWork w).monitor = s.monitor from rfl, show (s.withWork w).included c = s.included c from rfl,
    show (s.withWork w).sumOf c = s.sumOf c from rfl]
  split
  · rfl
  next b _ =>
    split
    · have warned : (s.withWork w).warnStep c b (s.sumOf c) = (s.warnStep c b (s.sumOf c)).withWork w := warnStep_blind _ _ _ s w
      rw [warned]
      exact spendStep_blind _ _ _ (s.warnStep c b (s.sumOf c)) w
    · rfl

theorem peakStep_blind (c : Chan) : Blind (·.peakStep c) := by
  intro s w
  dsimp only [State.peakStep]
  rw [show (s.withWork w).monitor = s.monitor from rfl, show (s.withWork w).included c = s.included c from rfl,
    show (s.withWork w).results c = s.results c from rfl]
  split
  · rfl
  next t _ =>
    split
    · split
      · exact offer_blind _ _ _ (s.setMonitor c { s.monitor.get c with
          peakHoldOff := Config.peakHoldOff, peaksOver := bump max32 (s.monitor.get c).peaksOver, peaksSuppressed := 0 }) w
      · rfl
    · rfl

theorem storeCapture_blind (i : Fin 16) (d : Descriptor) (stamp : Stamp) : Blind (·.storeCapture i d stamp) :=
  fun s w => offer_blind _ _ _ (s.setRole i (.stored d)) w

theorem recordBlock_blind (c : Chan) (i : Fin 16) (d : Descriptor) (tail : Option Nat) (bytes : List Byte) :
    Blind (·.recordBlock c i d tail bytes) := by
  intro s w
  dsimp only [State.recordBlock]
  rw [show (s.withWork w).capture = s.capture from rfl, show (s.withWork w).handed = s.handed from rfl]
  obtain ⟨k, pushed⟩ : ∃ k : Capture, k =
      if s.capture.accepts then s.capture.push ⟨i, circular d.start d.length, bytes⟩ else s.capture := ⟨_, rfl⟩
  rw [← pushed]
  split
  · exact storeCapture_blind _ _ _ { s with capture := { k with closeBlock := s.capture.closeBlock.set c false } } w
  · exact storeCapture_blind _ _ _ { s with capture := { k with closeBlock := s.capture.closeBlock.set c false } } w
  · rfl

theorem ringBlock_blind (c : Chan) (i : Fin 16) (bytes : List Byte) : Blind (·.ringBlock c i bytes) := by
  intro s w
  dsimp only [State.ringBlock]
  rw [show (s.withWork w).capture = s.capture from rfl]
  split
  · rfl
  · split <;> rfl

theorem captureStep_blind (c : Chan) : Blind (·.captureStep c) := by
  intro s w
  dsimp only [State.captureStep]
  rw [show (s.withWork w).capture = s.capture from rfl, show (s.withWork w).captureBlock c = s.captureBlock c from rfl]
  split
  next i d tail _ => exact recordBlock_blind c i d tail _ s w
  · split
    next i _ => exact ringBlock_blind c i _ s w
    · rfl

theorem adjustK_blind (c : Chan) (outcome : Adjustment) (deviation : Option Int) : Blind (·.adjustK c outcome deviation) := by
  intro s w
  dsimp only [State.adjustK]
  split <;> rfl

theorem endCheck_blind (e : Ending) (counted : Nat) (stamp : Stamp) : Blind (·.endCheck e counted stamp) := by
  intro s w
  dsimp only [State.endCheck]
  rw [show (s.withWork w).check = s.check from rfl]
  split
  · rfl
  · rfl
  next p _ _ =>
    have adjusted (outcome : Adjustment) := adjustK_blind p.chan outcome e.deviation (s.releaseChannel p.chan) w
    dsimp only at adjusted
    rw [show (s.withWork w).releaseChannel p.chan = (s.releaseChannel p.chan).withWork w from rfl, adjusted,
      show (s.withWork w).store = s.store from rfl, show (s.withWork w).k p.chan = s.k p.chan from rfl]
    obtain ⟨u, u_eq⟩ : ∃ u : State, u = (s.releaseChannel p.chan).adjustK p.chan
      (e.adjustment p s.store.commitPending (s.k p.chan)) e.deviation := ⟨_, rfl⟩
    rw [← u_eq]
    exact offer_blind _ _ _ { u with check := ⟨.idle, none, 0, 0, _⟩ } w

theorem cutCheck_blind (result : CheckEnd) (stamp : Stamp) : Blind (·.cutCheck result stamp) :=
  fun s w => endCheck_blind _ _ _ s w

theorem engineStep_blind : Blind State.engineStep := by
  intro s w
  unfold State.engineStep
  rw [show (s.withWork w).checkStepKind = s.checkStepKind from rfl, show (s.withWork w).check = s.check from rfl]
  split
  · exact endCheck_blind _ _ _ s w
  · rfl
  · rfl
  · rfl
  · exact endCheck_blind _ _ _ s w
  · rfl

theorem startCapture_blind (c : Chan) (episode : Nat) (start : Stamp) (i : Fin 16) (s : State) (w : Option (List Task)) :
    (s.withWork w).startCapture c episode start i =
      ((s.startCapture c episode start i).1.withWork w, (s.startCapture c episode start i).2) := by
  dsimp only [State.startCapture]
  rw [show (s.withWork w).capture = s.capture from rfl]
  split <;> rfl

theorem openCapture_blind (c : Chan) (episode : Nat) (start : Stamp) (s : State) (w : Option (List Task)) :
    (s.withWork w).openCapture c episode start =
      ((s.openCapture c episode start).1.withWork w, (s.openCapture c episode start).2) := by
  have missed (cause : MissReason) := offer_blind (some c) start (.captureMissed episode cause) s w
  dsimp only at missed
  dsimp only [State.openCapture]
  rw [show (s.withWork w).capture = s.capture from rfl, missed, missed]
  split
  · rfl
  · split
    · rfl
    · split
      · exact startCapture_blind c episode start _ s w
      · split
        · rfl
        · split
          next i d _ =>
            have discarded := offer_blind (some c) start
              (.captureDiscarded d.id d.chan d.firstEpisode d.episodeCount episode)
              { s with capture := s.capture.release i d } w
            exact (congrArg (State.startCapture · c episode start i) discarded).trans (startCapture_blind c episode start i _ w)
          · rfl

theorem announced_blind (c : Chan) (limit : Int) : Blind (·.announced c limit) := fun s w =>
  offer_blind _ _ _ (State.setMonitor { s with nextEpisode := next32 s.nextEpisode } c
    { s.monitor.get c with
      phase := .opened, episode := some (s.newEpisode c none)
      episodesOpened := bump max32 (s.monitor.get c).episodesOpened }) w

theorem openEpisode_blind (c : Chan) (limit : Int) : Blind (·.openEpisode c limit) := by
  intro s w
  have opens (u : State) : u.openEpisode c limit =
      let r := (u.announced c limit).openCapture c u.nextEpisode u.handed.report.ended
      r.1.setMonitor c { r.1.monitor.get c with episode := some (u.newEpisode c r.2) } := rfl
  dsimp only
  rw [opens, opens, show (s.withWork w).announced c limit = (s.announced c limit).withWork w from announced_blind c limit s w,
    openCapture_blind]
  rfl

/-! ### A commit -/

theorem commitGuard_blind (old new : Settings) : Blind (·.commitGuard old new) := by
  intro s w
  dsimp only [State.commitGuard]
  split <;> rfl

theorem commitCheck_blind (old new : Settings) (stamp : Stamp) : Blind (·.commitCheck old new stamp) := by
  intro s w
  dsimp only [State.commitCheck]
  rw [show (s.withWork w).check = s.check from rfl]
  split
  · split
    · exact cutCheck_blind _ _ s w
    · rfl
  · rfl

theorem committed_blind (atBoundary : Bool) (stamp : Stamp) : Blind (·.committed atBoundary stamp) := by
  intro s w
  have owners (old new : Settings) (u : State) :
      ((u.withWork w).commitRanges old new).commitUnits old new = ((u.commitRanges old new).commitUnits old new).withWork w := rfl
  have told := offer_blind none stamp (.configApplied atBoundary) { s with store := s.store.applied } w
  dsimp only at told
  dsimp only [State.committed]
  refine (congrArg (State.commitGuard · _ _) ((congrArg (fun u : State => (u.commitRanges _ _).commitUnits _ _) told).trans
    (owners _ _ _))).trans ?_
  exact commitGuard_blind _ _ _ w

theorem applyCommit_blind (atBoundary : Bool) (stamp : Stamp) : Blind (·.applyCommit atBoundary stamp) := by
  intro s w
  dsimp only
  rw [applyCommit_eq, applyCommit_eq,
    show (s.withWork w).committed atBoundary stamp = (s.committed atBoundary stamp).withWork w from committed_blind _ _ s w]
  exact commitCheck_blind _ _ _ (s.committed atBoundary stamp) w

theorem commitAtOnce_blind (stamp : Stamp) : Blind (·.commitAtOnce stamp) := by
  intro s w
  dsimp only [State.commitAtOnce]
  rw [show (s.withWork w).applyCommit false stamp = (s.applyCommit false stamp).withWork w from applyCommit_blind _ _ s w]
  rfl

/-! ### The steps with closes -/

/-- The capture steps still due are the same with `w` as the list of those due. -/
def SameCaptures (w : Option (List Task)) (s : State) : Prop := ∀ c, (s.withWork w).captureStepDue c = s.captureStepDue c

/-- What an operation does depends on the capture steps still due alone, and it leaves those due. -/
def BlindButCaptures (w : Option (List Task)) (f : State → State) : Prop :=
  ∀ s, SameCaptures w s → f (s.withWork w) = (f s).withWork w ∧ (f s).blockWork = s.blockWork

theorem SameCaptures.congr {w : Option (List Task)} {s t : State} (h : SameCaptures w s) (work : t.blockWork = s.blockWork) :
    SameCaptures w t := fun c => by
  have same := h c
  unfold State.captureStepDue at same ⊢
  rw [work]
  exact same

section Closes

variable {w : Option (List Task)} {f g : State → State}

theorem Blind.butCaptures (h : Blind f) (keeps : ∀ s, (f s).blockWork = s.blockWork) : BlindButCaptures w f :=
  fun s _ => ⟨h s w, keeps s⟩

theorem BlindButCaptures.comp (h : BlindButCaptures w f) (h' : BlindButCaptures w g) :
    BlindButCaptures w fun s => f (g s) := fun s same => by
  obtain ⟨eq, keeps⟩ := h' s same
  obtain ⟨eq', keeps'⟩ := h (g s) (same.congr keeps)
  exact ⟨(congrArg f eq).trans eq', keeps'.trans keeps⟩

theorem closeEpisode_blind (c : Chan) (reason : CloseReason) (stamp : Stamp) {s : State}
    (same : (s.withWork w).captureStepDue c = s.captureStepDue c) :
    (s.withWork w).closeEpisode c reason stamp = (s.closeEpisode c reason stamp).withWork w := by
  have close (id : Option Nat) (u : State) (work : u.blockWork = s.blockWork) :
      (u.withWork w).closeCapture c id reason stamp = (u.closeCapture c id reason stamp).withWork w := by
    have due : (u.withWork w).captureStepDue c = u.captureStepDue c := by
      unfold State.captureStepDue at same ⊢
      rw [work]
      exact same
    unfold State.closeCapture
    rw [due, show (u.withWork w).capture = u.capture from rfl]
    split
    · split
      · rfl
      · split
        · exact storeCapture_blind _ _ _ u w
        · split
          · rfl
          · split
            · exact storeCapture_blind _ _ _ u w
            · rfl
    · rfl
  unfold State.closeEpisode
  rw [show (s.withWork w).monitor = s.monitor from rfl]
  split
  · rfl
  next e _ =>
    have told := offer_blind (some c) stamp (.episodeClosed (e.complete c (s.k c) stamp reason)) s w
    dsimp only at told ⊢
    rw [show (s.withWork w).k c = s.k c from rfl, told, close _ _ (offer_blockWork ..)]
    rfl

theorem closes_blind (pick : Nat → Nat) (reason : CloseReason) (stamp : State → Stamp)
    (blind : ∀ s : State, stamp (s.withWork w) = stamp s) (l : State → List Chan) (reads : ∀ s : State, l (s.withWork w) = l s) :
    BlindButCaptures w fun s => s.eachFreely pick (l s) fun c s => s.closeEpisode c reason (stamp s) := by
  intro s same
  have fold (order : List Chan) : BlindButCaptures w fun s => order.foldl (fun s c => s.closeEpisode c reason (stamp s)) s := by
    induction order with
    | nil => exact fun _ _ => ⟨rfl, rfl⟩
    | cons c order ih =>
      exact ih.comp fun s same => ⟨by dsimp only; rw [blind]; exact closeEpisode_blind c reason _ (same c), closeEpisode_blockWork ..⟩
  dsimp only [State.eachFreely]
  rw [reads]
  exact fold (anyOrder pick s.choice (l s)) { s with choice := s.choice + (l s).length } same

/-- The records of a closing interval (R84). -/
theorem closeInterval_blind (iv : Interval) (cause : CloseCause) : Blind (·.closeInterval iv cause) := by
  intro s w
  have record (c : Chan) : Blind (State.recordChannel iv cause · c) := by
    intro s w
    dsimp only [State.recordChannel]
    split
    · rfl
    · split
      · rfl
      · exact putRecord_blind _ _ s w
  have fold (l : List Chan) : Blind fun s => l.foldl (State.recordChannel iv cause) s := by
    induction l with
    | nil => exact fun _ _ => rfl
    | cons c l ih => exact fun s w => (congrArg (fun u => l.foldl _ u) (record c s w)).trans (ih _ w)
  have records := fold Chan.all s w
  dsimp only at records
  dsimp only [State.closeInterval]
  rw [records]
  rfl

theorem closeUnlimited_blind (pick : Nat → Nat) : BlindButCaptures w (·.closeUnlimited pick) :=
  closes_blind pick .limitRemoved (fun s => s.handed.report.ended) (fun _ => rfl)
    (fun s => s.openEpisodes.filter fun c => (s.monitor.get c).lmax.isNone) fun _ => rfl

theorem openInterval_blind (pick : Nat → Nat) (clamps : Quad Nat) (applied : Bool) :
    BlindButCaptures w (·.openInterval pick clamps applied) := by
  intro s same
  obtain ⟨eq, -⟩ := closeUnlimited_blind pick
    { s with
      interval := some (s.newInterval clamps applied (lookup s.active.schedule s.handed.report.reading))
      clock := { s.clock with entryInForce := some (lookup s.active.schedule s.handed.report.reading) }
      acc := { s.acc with
        phase := .measuring, openingPending := false, restartPending := false, nextNumber := next32 s.acc.nextNumber
        carriedConfig := false, carriedClock := false, carriedGain := .same 0 }
      monitor := s.monitor.mapWith fun c m => MonitorChan.atOpening (s.active.chan.get c)
        ((s.newInterval clamps applied (lookup s.active.schedule s.handed.report.reading)).accs.get c)
        (s.newInterval clamps applied (lookup s.active.schedule s.handed.report.reading)).nNom m } same
  exact ⟨eq, openInterval_blockWork ..⟩

theorem enterMeasuring_blind (pick : Nat → Nat) : BlindButCaptures w (·.enterMeasuring pick) := by
  intro s same
  refine ⟨?_, enterMeasuring_blockWork ..⟩
  dsimp only [State.enterMeasuring]
  rw [show (s.withWork w).store = s.store from rfl]
  split
  · have applied := applyCommit_blind true s.handed.report.ended s w
    dsimp only at applied
    rw [show (s.withWork w).handed = s.handed from rfl, applied]
    exact (openInterval_blind pick (s.clampCounts s.store.staged) true (s.applyCommit true s.handed.report.ended)
      (same.congr (applyCommit_blockWork ..))).1
  · exact (openInterval_blind pick (.same 0) false s same).1

/-- HELD is entered, up to the commit that follows (R84 step 2). -/
def State.heldClosed (pick : Nat → Nat) (s : State) (closed : Option Nat) : State :=
  let s := State.offer
    { s with acc := { s.acc with phase := .held, holdPending := false, openingPending := false, restartPending := false } }
    none s.handed.report.ended (.holdEntered closed)
  s.eachFreely pick s.openEpisodes fun c s => s.closeEpisode c .limitRemoved s.handed.report.ended

theorem enterHeld_eq (pick : Nat → Nat) (s : State) (closed : Option Nat) :
    s.enterHeld pick closed =
      if (s.heldClosed pick closed).store.commitPending then
        (s.heldClosed pick closed).commitAtOnce s.handed.report.ended
      else s.heldClosed pick closed := rfl

theorem heldClosed_blind (pick : Nat → Nat) (closed : Option Nat) : BlindButCaptures w (·.heldClosed pick closed) := by
  intro s same
  have told := offer_blind none s.handed.report.ended (.holdEntered closed) { s with acc := { s.acc with
    phase := .held, holdPending := false, openingPending := false, restartPending := false } } w
  obtain ⟨closes, keeps⟩ := closes_blind pick .limitRemoved (fun s => s.handed.report.ended) (fun _ => rfl) State.openEpisodes
    (fun _ => rfl) (State.offer { s with acc := { s.acc with
      phase := .held, holdPending := false, openingPending := false, restartPending := false } } none s.handed.report.ended
      (.holdEntered closed)) (same.congr (offer_blockWork ..))
  exact ⟨(congrArg (fun u : State => u.eachFreely pick u.openEpisodes fun c s =>
    s.closeEpisode c .limitRemoved s.handed.report.ended) told).trans closes, keeps.trans (offer_blockWork ..)⟩

theorem enterHeld_blind (pick : Nat → Nat) (closed : Option Nat) : BlindButCaptures w (·.enterHeld pick closed) := by
  intro s same
  refine ⟨?_, enterHeld_blockWork ..⟩
  obtain ⟨eq, -⟩ := heldClosed_blind pick closed s same
  dsimp only at eq ⊢
  rw [enterHeld_eq, enterHeld_eq, eq, show ((s.heldClosed pick closed).withWork w).store = (s.heldClosed pick closed).store from rfl]
  split
  · exact commitAtOnce_blind s.handed.report.ended (s.heldClosed pick closed) w
  · rfl

theorem boundaryStep_blind (pick : Nat → Nat) : BlindButCaptures w (·.boundaryStep pick) := by
  intro s same
  refine ⟨?_, boundaryStep_blockWork ..⟩
  dsimp only [State.boundaryStep, State.openingBoundary]
  rw [show (s.withWork w).interval = s.interval from rfl, show (s.withWork w).closeCause = s.closeCause from rfl,
    show (s.withWork w).openingDue = s.openingDue from rfl, show (s.withWork w).handed = s.handed from rfl,
    show (s.withWork w).acc = s.acc from rfl]
  split
  next iv _ =>
    split
    next cause _ =>
      have closes := closeInterval_blind iv cause s w
      have same' := same.congr (closeInterval_blockWork s iv cause)
      dsimp only at closes
      rw [closes, show ((s.closeInterval iv cause).withWork w).acc = (s.closeInterval iv cause).acc from rfl]
      split
      · exact (enterHeld_blind pick (some iv.number) _ same').1
      · exact (enterMeasuring_blind pick _ same').1
    · rfl
  · split
    · split
      · split
        · exact (enterHeld_blind pick none s.carryClock same).1
        · exact (enterHeld_blind pick none s same).1
      · exact (enterMeasuring_blind pick s same).1
    · split <;> rfl

end Closes

theorem episodeStep_blind (c : Chan) {s : State} {w : Option (List Task)}
    (same : (s.monitor.get c).episode.isSome = true → (s.withWork w).captureStepDue c = s.captureStepDue c) :
    (s.withWork w).episodeStep c = (s.episodeStep c).withWork w := by
  unfold State.episodeStep
  rw [show (s.withWork w).monitor = s.monitor from rfl]
  split
  next e opened =>
    dsimp only
    rw [show (s.withWork w).episodeReleases c = s.episodeReleases c from rfl]
    split
    · exact closeEpisode_blind c .released s.handed.report.ended (s := s.setMonitor c (s.afterBlock c e))
        (same (by rw [opened]; rfl))
    · rfl
  · split
    · rw [show (s.withWork w).considered c = s.considered c from rfl,
        show (s.withWork w).results c = s.results c from rfl]
      split
      · exact openEpisode_blind c _ s w
      · rfl
    · rfl

/-- What a step of the block end does depends on those still due in one way alone: whether the capture step of a channel
whose episode may close with it is among them. -/
theorem runTask_withWork (t : Task) (s : State) (w : Option (List Task))
    (same : ∀ c, (t = .episode c ∧ (s.monitor.get c).episode.isSome = true) ∨ t = .boundary →
      (.capture c ∈ w.getD [] ↔ .capture c ∈ s.dueSteps)) :
    runTask Config.pick t (s.withWork w) = (runTask Config.pick t s).withWork w := by
  have due (u : State) (c : Chan) : u.captureStepDue c = true ↔ .capture c ∈ u.dueSteps := by
    unfold State.captureStepDue State.dueSteps
    cases u.blockWork with
    | none => simp
    | some l => exact List.contains_iff_mem
  have captures (c : Chan) (h : (t = .episode c ∧ (s.monitor.get c).episode.isSome = true) ∨ t = .boundary) :
      (s.withWork w).captureStepDue c = s.captureStepDue c :=
    Bool.eq_iff_iff.2 ((due _ c).trans ((same c h).trans (due s c).symm))
  cases t with
  | range c => rfl
  | weigh c => rfl
  | clock => exact clockStep_blind s w
  | classify => rfl
  | engine => exact engineStep_blind s w
  | accumulate => exact accumulateStep_blind s w
  | peak c => exact peakStep_blind c s w
  | budget c => exact budgetStep_blind c s w
  | episode c => exact episodeStep_blind c fun opened => captures c (.inl ⟨rfl, opened⟩)
  | capture c => exact captureStep_blind c s w
  | boundary => exact (boundaryStep_blind Config.pick s fun c => captures c (.inr rfl)).1
  | alert => rfl
  | live => exact liveStep_blind s w

end Sys2Proof.Machine
end

section
/-! PROOFS. BLOCK_END: what the clock's step, a unit's step and the classification leave at its end, among the steps due (R37,
R56, R63, R68, R90 to R92). -/

namespace Sys2Proof.Machine

/-! ### The steps that leave a unit's sums -/

/-- The sums and raw samples of a block so far (R37). -/
def WeightUnit.sums (u : WeightUnit) : Nat × Nat × Nat × Nat × List Int :=
  (u.energy, u.blockPeak, u.saturations, u.checkEnergy, u.raw)

theorem commit_sums (u : WeightUnit) (mainChanged peakChanged : Bool) : (u.commit mainChanged peakChanged).sums = u.sums := by
  cases mainChanged <;> cases peakChanged <;> rfl

section Sums

variable {c : Chan} {v : Nat × Nat × Nat × Nat × List Int}

theorem endCheck_sums {s : State} (h : (s.unit.get c).sums = v) (e : Ending) (counted : Nat) (stamp : Stamp) :
    ((s.endCheck e counted stamp).unit.get c).sums = v := by
  unfold State.endCheck
  split
  · exact h
  · exact h
  next p _ _ =>
    dsimp only
    rw [offer_unit, adjustK_frame]
    refine .trans ?_ h
    dsimp only
    rw [releaseChannel_unit]
    split
    next same => rw [same]; rfl
    · rfl

theorem sums_meterKept : MeterKept fun s => (s.unit.get c).sums = v where
  quiet s u _ _ unit _ _ _ h := by rw [unit]; exact h
  cut _ _ _ h := endCheck_sums h ..
  commit s h := by
    simp only [State.commitUnits, State.commitRanges, Quad.get_mapWith, commit_sums]
    exact h

theorem runTask_sums {t : Task} {s : State} (other : t ≠ .weigh c) (h : (s.unit.get c).sums = v) :
    ((runTask Config.pick t s).unit.get c).sums = v := by
  cases t with
  | weigh d =>
    have apart : c ≠ d := fun e => other (e ▸ rfl)
    exact (congrArg WeightUnit.sums (Quad.get_set_other _ _ apart)).trans h
  | engine =>
    change ((State.engineStep s).unit.get c).sums = v
    unfold State.engineStep
    split
    · exact endCheck_sums h ..
    · exact h
    · exact h
    · exact h
    · exact endCheck_sums h ..
    · exact h
  | boundary => exact sums_meterKept.boundaryStep Config.pick s h
  | _ => simpa [runTask] using h

end Sums

/-! ### The steps that leave the accumulator's view of ACT -/

section View

variable (s : State) (pick : Nat → Nat)

theorem openInterval_view (clamps : Quad Nat) (applied : Bool) :
    (s.openInterval pick clamps applied).acc.prevAct = s.acc.prevAct ∧
      (s.openInterval pick clamps applied).acc.guardRemaining = s.acc.guardRemaining := by
  unfold State.openInterval
  dsimp only
  rw [closeUnlimited_acc]
  exact ⟨rfl, rfl⟩

theorem enterMeasuring_view : (s.enterMeasuring pick).acc.prevAct = s.acc.prevAct ∧
    (s.store.commitPending = false → (s.enterMeasuring pick).acc.guardRemaining = s.acc.guardRemaining) := by
  unfold State.enterMeasuring
  split
  next pending =>
    refine ⟨?_, fun none => absurd (none.symm.trans pending) (by decide)⟩
    rw [(openInterval_view _ pick _ _).1, applyCommit_acc]
  · exact ⟨(openInterval_view _ pick _ _).1, fun _ => (openInterval_view _ pick _ _).2⟩

theorem enterHeld_view (closed : Option Nat) : (s.enterHeld pick closed).acc.prevAct = s.acc.prevAct ∧
    (s.store.commitPending = false → (s.enterHeld pick closed).acc.guardRemaining = s.acc.guardRemaining) := by
  have acc : (s.heldClosed pick closed).acc = { s.acc with
      phase := .held, holdPending := false, openingPending := false, restartPending := false } := by
    unfold State.heldClosed
    rw [closeAll_frame, offer_acc]
  have store : (s.heldClosed pick closed).store = s.store := by
    unfold State.heldClosed
    rw [closeAll_frame, offer_store]
  rw [enterHeld_eq, store]
  split
  next pending =>
    refine ⟨?_, fun none => absurd (none.symm.trans pending) (by decide)⟩
    rw [commitAtOnce_acc, acc]
  · rw [acc]
    exact ⟨rfl, fun _ => rfl⟩

theorem boundaryStep_view : (s.boundaryStep pick).acc.prevAct = s.acc.prevAct ∧
    (s.store.commitPending = false → (s.boundaryStep pick).acc.guardRemaining = s.acc.guardRemaining) := by
  unfold State.boundaryStep State.openingBoundary
  dsimp only
  split
  next iv _ =>
    split
    next cause _ =>
      have held := enterHeld_view (s.closeInterval iv cause) pick (some iv.number)
      have measuring := enterMeasuring_view (s.closeInterval iv cause) pick
      rw [closeInterval_acc, closeInterval_store] at held measuring
      rw [closeInterval_acc]
      split
      · exact held
      · exact measuring
    · exact ⟨rfl, fun _ => rfl⟩
  · split
    · split
      · split
        · exact enterHeld_view s.carryClock pick none
        · exact enterHeld_view s pick none
      · exact enterMeasuring_view s pick
    · split
      · exact ⟨rfl, fun _ => rfl⟩
      · exact ⟨rfl, fun _ => rfl⟩

end View

theorem runTask_prevAct {t : Task} {s : State} (other : t ≠ .classify) :
    (runTask Config.pick t s).acc.prevAct = s.acc.prevAct := by
  cases t with
  | classify => exact absurd rfl other
  | boundary => exact (boundaryStep_view s Config.pick).1
  | _ => simp [runTask]

theorem runTask_guard {t : Task} {s : State} (other : t ≠ .classify)
    (free : t = .boundary → s.store.commitPending = false) :
    (runTask Config.pick t s).acc.guardRemaining = s.acc.guardRemaining := by
  cases t with
  | classify => exact absurd rfl other
  | boundary => exact (boundaryStep_view s Config.pick).2 (free rfl)
  | _ => simp [runTask]

theorem runTask_commitPending {t : Task} {s : State} (none : s.store.commitPending = false) :
    (runTask Config.pick t s).store.commitPending = false := by
  obtain e | ⟨c, k, -, -, -, e⟩ | e := runTask_store Config.pick t s
  · rw [e]
    exact none
  · rw [e]
    exact none
  · rw [e]
    exact atBoundary_commitPending _

theorem runTask_strike {t : Task} {s : State} (other : t ≠ .classify) :
    (runTask Config.pick t s).handed.strike = s.handed.strike := by
  cases t with
  | classify => exact absurd rfl other
  | clock =>
    change (State.clockStep s).handed.strike = _
    unfold State.clockStep
    split <;> rfl
  | boundary => exact congrArg Handed.strike (boundaryStep_handed s Config.pick)
  | weigh c => rfl
  | _ => simp [runTask]

/-! ### The clock's step -/

theorem runTask_clock {t : Task} {s : State} (other : t ≠ .clock) :
    ((runTask Config.pick t s).clock.now, (runTask Config.pick t s).clock.isSet, (runTask Config.pick t s).clock.pendingLoad) =
      (s.clock.now, s.clock.isSet, s.clock.pendingLoad) := by
  cases t with
  | clock => exact absurd rfl other
  | boundary =>
    obtain ⟨e, he⟩ := boundaryStep_clock s Config.pick
    rw [runTask, he]
  | _ => simp [runTask]

/-- What the clock's step hands and leaves, from the reading and the load, interval and entry in force as they were (R56, R63,
R68). -/
def ClockTaken (s : State) (r : ClockReport) (clock : Stamp × Bool × Option Stamp) : Prop :=
  clock = (s.clockStep.clock.now, s.clockStep.clock.isSet, s.clockStep.clock.pendingLoad) ∧ r = s.clockStep.handed.report

theorem clockStep_congr {s u : State} (clock : u.clock = s.clock) (interval : u.interval = s.interval)
    (store : u.store = s.store) :
    u.clockStep.clock = s.clockStep.clock ∧ u.clockStep.handed.report = s.clockStep.handed.report := by
  have report : u.advanceReport = s.advanceReport := by
    unfold State.advanceReport State.scheduleChange
    rw [clock, interval, show u.active = s.active from congrArg Store.active store]
  unfold State.clockStep
  rw [report, clock]
  split
  · exact ⟨rfl, rfl⟩
  next t _ =>
    refine ⟨rfl, ?_⟩
    dsimp only [State.loadReport]
    rw [clock]

theorem finishBlock_clock {s : State} {l : List Task} (due : s.blockWork = some l) (nodup : l.Nodup) (mem : .clock ∈ l) :
    ClockTaken s (s.finishBlock Config.pick).handed.report
      ((s.finishBlock Config.pick).clock.now, (s.finishBlock Config.pick).clock.isSet,
        (s.finishBlock Config.pick).clock.pendingLoad) := by
  obtain ⟨u, taken, same⟩ := finishBlock_through
    (P := fun u => u.clock = s.clock ∧ u.interval = s.interval ∧ u.store = s.store)
    (Q := fun u => ClockTaken s u.handed.report (u.clock.now, u.clock.isSet, u.clock.pendingLoad))
    due nodup mem (fun _ => ⟨rfl, rfl, rfl⟩) (fun _ _ h => h) (fun _ _ h => h)
    (fun x _ _ early u h => by
      cases x with
      | range c | weigh c => exact h
      | clock => contradiction
      | _ => cases early)
    (fun u h => by
      obtain ⟨clock, interval, store⟩ := h
      obtain ⟨clock, report⟩ := clockStep_congr clock interval store
      exact ⟨by rw [← clock]; rfl, report⟩)
    (fun x _ apart _ u h => by
      rw [runTask_clock apart, runTask_report apart]
      exact h)
  rw [same]
  exact taken

/-- What the clock's step hands with a load pending, and without (R56, R63, R68). -/
theorem clockStep_load {s : State} {t : Stamp} (load : s.clock.pendingLoad = some t) :
    s.clockStep.clock = { s.clock with isSet := true, now := t, pendingLoad := none } ∧
      s.clockStep.handed.report = ⟨advance s.clock.now, t, true, false, false, false, none, s.clock.now.block⟩ := by
  unfold State.clockStep
  rw [load]
  exact ⟨rfl, rfl⟩

theorem clockStep_advance {s : State} (none : s.clock.pendingLoad = none) :
    s.clockStep.clock = { s.clock with now := advance s.clock.now } ∧ s.clockStep.handed.report = s.advanceReport := by
  unfold State.clockStep
  split
  · exact ⟨rfl, rfl⟩
  next load => rw [none] at load; cases load

theorem advanceReport_eq (s : State) :
    let now := s.clock.now
    let r := s.advanceReport
    let found := lookup s.store.active.schedule (advance now)
    r.secondChanged = decide (999 ≤ now.block) ∧
    r.minuteChanged = decide (999 ≤ now.block ∧ (advance now).second % 60 = 0) ∧
    r.dayChanged = decide (999 ≤ now.block ∧ 86399 ≤ now.second) ∧
    r.scheduleChange =
      if r.minuteChanged = true ∧ s.interval.isSome = true ∧ s.clock.entryInForce ≠ some found then some found else none := by
  intro now r found
  have turns : secondTurns now = decide (999 ≤ now.block) := by
    unfold secondTurns
    rw [decide_eq_decide]
    omega
  refine ⟨turns, ?_, ?_, ?_⟩
  · refine (congrArg (· && _) turns).trans ?_
    rw [Bool.decide_and]
  · refine (congrArg (· && _) turns).trans ?_
    rw [← Bool.decide_and, decide_eq_decide]
    change 999 ≤ now.block ∧ 86400 ≤ now.second + 1 ↔ _
    omega
  · have formed : r.scheduleChange = if r.minuteChanged then s.scheduleChange (advance now) else none := rfl
    rw [formed]
    unfold State.scheduleChange
    cases r.minuteChanged with
    | false => simp
    | true =>
      cases s.interval with
      | none => simp
      | some iv =>
        dsimp only
        rw [if_pos rfl]
        by_cases same : s.clock.entryInForce = some (lookup s.active.schedule (advance now))
        · rw [if_pos same, if_neg fun h => h.2.2 same]
        · rw [if_neg same, if_pos ⟨rfl, rfl, same⟩]
          rfl

/-! ### The classification (R90 to R92) -/

/-- The guard at the classification of the block that has ended (R91). -/
def State.guardNow (s : State) : Nat :=
  guardAfterSample s.active.guardLength s.acc.guardRemaining s.acc.prevAct s.port.actSample

theorem guardNow_eq (s : State) :
    s.guardNow = if s.acc.prevAct = some (!s.port.actSample) then s.store.active.guardLength else s.acc.guardRemaining := by
  unfold State.guardNow guardAfterSample
  cases s.acc.prevAct with
  | none => rfl
  | some p => cases p <;> cases s.port.actSample <;> rfl

theorem isStrike_eq (mode : ActivityMode) (high : Bool) (prev : Option Bool) (sample : Bool) :
    isStrike mode high prev sample = decide (mode = .strike ∧ sample = high ∧ prev = some (!sample)) := by
  unfold isStrike atActiveLevel
  cases mode <;> cases high <;> cases sample <;> rcases prev with _ | ⟨_ | _⟩ <;> rfl

theorem includedClass_eq (mode : ActivityMode) (high sample : Bool) (g : Nat) :
    includedClass mode high (decide (0 < g)) sample =
      if mode ≠ .gate then .active
      else if 0 < g then .transition
      else if sample = high then .active
      else .quiet := by
  unfold includedClass atActiveLevel
  cases mode with
  | off | strike => rfl
  | gate => simp

/-- What the classification leaves, from the state as it finds it. -/
structure Classified (s u : State) : Prop where
  sample : u.acc.prevAct = some s.port.actSample
  strike : u.handed.strike = isStrike s.active.mode s.active.polarityHigh s.acc.prevAct s.port.actSample
  classes : u.handed.classes = s.acc.checkInBlock.mapWith fun _ checked =>
    if checked then .excluded
    else includedClass s.active.mode s.active.polarityHigh (decide (0 < s.guardNow)) s.port.actSample

theorem finishBlock_classified {s : State} {l : List Task} (due : s.blockWork = some l) (nodup : l.Nodup)
    (mem : .classify ∈ l) :
    Classified s (s.finishBlock Config.pick) ∧ ((.boundary ∈ l → s.store.commitPending = false) →
      (s.finishBlock Config.pick).acc.guardRemaining = s.guardNow - 1) := by
  obtain ⟨u, taken, same⟩ := finishBlock_through
    (P := fun u => u.acc = s.acc ∧ u.port = s.port ∧ u.active = s.active ∧
      (s.store.commitPending = false → u.store.commitPending = false))
    (Q := fun u => Classified s u ∧ (s.store.commitPending = false → u.store.commitPending = false) ∧
      ((.boundary ∈ l → s.store.commitPending = false) → u.acc.guardRemaining = s.guardNow - 1))
    due nodup mem (fun _ => ⟨rfl, rfl, rfl, fun h => h⟩)
    (fun _ _ h => h) (fun _ _ h => ⟨⟨h.1.1, h.1.2, h.1.3⟩, h.2⟩)
    (fun x _ _ early u h => by
      obtain ⟨acc, port, active, pending⟩ := h
      refine ⟨?_, ?_, ?_, fun none => runTask_commitPending (pending none)⟩
      · cases x with
        | classify => contradiction
        | range c | weigh c => exact acc
        | clock | engine => simpa [runTask] using acc
        | _ => cases early
      · cases x with
        | boundary => cases early
        | _ => simpa [runTask] using port
      · exact (congrArg Prod.fst (runTask_boundaryFlags fun e => by rw [e] at early; cases early)).trans active)
    (fun u h => by
      obtain ⟨acc, port, active, pending⟩ := h
      have guard : u.guardNow = s.guardNow := by
        unfold State.guardNow
        rw [acc, port, active]
      refine ⟨⟨?_, ?_, ?_⟩, fun none => runTask_commitPending (pending none), fun _ => ?_⟩
      · exact congrArg (fun p => some p.actSample) port
      · rw [← acc, ← port, ← active]
        rfl
      · rw [← guard, ← acc, ← port, ← active]
        rfl
      · rw [← guard]
        rfl)
    (fun x hx apart _ u h => by
      obtain ⟨⟨sample, strike, classes⟩, pending, guard⟩ := h
      refine ⟨⟨?_, ?_, ?_⟩, fun none => runTask_commitPending (pending none), fun free => ?_⟩
      · rw [runTask_prevAct apart, sample]
      · rw [runTask_strike apart, strike]
      · rw [runTask_classes apart, classes]
      · rw [runTask_guard apart fun e => pending (free (e ▸ hx)), guard free])
  rw [same]
  obtain ⟨⟨sample, strike, classes⟩, -, guard⟩ := taken
  exact ⟨⟨sample, strike, classes⟩, guard⟩

/-! ### A unit's step (R37) -/

theorem finishBlock_weighed {s : State} {l : List Task} {c : Chan} (due : s.blockWork = some l) (nodup : l.Nodup)
    (mem : .weigh c ∈ l) :
    ((∃ r, (s.finishBlock Config.pick).handed.results.get c = blockResultsOf (s.unit.get c).update r) ∧
      ((s.finishBlock Config.pick).unit.get c).sums = (0, 0, 0, 0, [])) := by
  obtain ⟨u, taken, same⟩ := finishBlock_through
    (P := fun u => u.unit.get c = s.unit.get c)
    (Q := fun u => (∃ r, u.handed.results.get c = blockResultsOf (s.unit.get c).update r) ∧
      (u.unit.get c).sums = (0, 0, 0, 0, []))
    due nodup mem (fun _ => rfl) (fun _ _ h => h) (fun _ _ h => h)
    (fun x _ apart early u h => by
      cases x with
      | range d => exact h
      | weigh d => exact (Quad.get_set_other _ _ fun e => apart (by rw [e])).trans h
      | _ => cases early)
    (fun u h => by
      refine ⟨⟨u.range.get c, ?_⟩, ?_⟩
      · rw [← h]
        exact Quad.get_set_same ..
      · exact congrArg WeightUnit.sums (Quad.get_set_same ..))
    (fun x _ apart _ u h => by
      obtain ⟨⟨r, results⟩, sums⟩ := h
      exact ⟨⟨r, (runTask_results apart).trans results⟩, runTask_sums apart sums⟩)
  rw [same]
  exact taken

/-! ### What BLOCK_END leaves -/

theorem finishBlock_leaves (s : State) :
    (s.finishBlock Config.pick).port = s.port ∧ (s.finishBlock Config.pick).link = s.link ∧
      (s.finishBlock Config.pick).memory = s.memory ∧ (s.finishBlock Config.pick).pending = s.pending :=
  finishBlock_keeps (fun u => u.port = s.port ∧ u.link = s.link ∧ u.memory = s.memory ∧ u.pending = s.pending) Config.pick
    (fun _ _ h => h) (fun _ _ h => h)
    (fun t u h => by
      cases t with
      | boundary => simpa [runTask] using h
      | _ => simpa [runTask] using h)
    (fun _ h => h) s ⟨rfl, rfl, rfl, rfl⟩

theorem on_isSome_iff (e : CheckEngine) (c : Chan) :
    (e.on c).isSome = true ↔ ∃ p, (e.phase ≠ .idle ∧ e.params = some p) ∧ p.chan = c := by
  by_cases idle : e.phase = .idle
  · rw [CheckEngine.on_idle idle]
    exact iff_of_false (by decide) fun ⟨_, busy, _⟩ => busy.1 idle
  cases params : e.params with
  | none =>
    refine iff_of_false (fun marked => ?_) fun ⟨_, busy, _⟩ => by cases busy.2
    unfold CheckEngine.on at marked
    rw [params] at marked
    split at marked <;> simp_all
  | some p =>
    rw [CheckEngine.on_running idle params]
    by_cases chan : p.chan = c
    · rw [if_pos chan]
      exact iff_of_true rfl ⟨p, ⟨idle, rfl⟩, chan⟩
    · rw [if_neg chan]
      refine iff_of_false (by decide) fun ⟨q, busy, same⟩ => chan ?_
      rw [Option.some.inj busy.2]
      exact same

/-- The marks for the block that begins: the channel of a running check (R90). -/
theorem finishBlock_marks {s : State} {l : List Task} (due : s.blockWork = some l) (c : Chan) :
    (s.finishBlock Config.pick).acc.checkInBlock.get c = true ↔
      ∃ p, Running (s.finishBlock Config.pick) p ∧ p.chan = c := by
  obtain ⟨order, -, -, same⟩ := finishBlock_order Config.pick s l due
  rw [same]
  obtain ⟨u, u_eq⟩ : ∃ u : State, u = runTasks Config.pick order { s with choice := s.choice + l.length } := ⟨_, rfl⟩
  rw [← u_eq]
  have mark : u.endOfBlock.acc.checkInBlock.get c = (u.check.on c).isSome := Quad.get_mapWith ..
  rw [mark]
  exact on_isSome_iff u.check c

/-- Settles O34: the order of the steps, what a step goes by, and the clock's, the units' and the classification's steps among
those due. -/
theorem blockEndAdvancesClock : Obligations.BlockEndAdvancesClock := by
  refine ⟨fun s none => exec_blockEnd (finishBlock_of_none _ s none), fun s l due => ?_, runTask_withWork,
    fun s l due nodup => ?_⟩
  · obtain ⟨order, perm, ordered, same⟩ := finishBlock_order Config.pick s l due
    exact ⟨order, perm, ordered, exec_blockEnd same⟩
  · obtain ⟨port, link, memory, pending⟩ := finishBlock_leaves s
    refine ⟨_, exec_blockEnd rfl, finishBlock_blockWork .., port, link, memory, pending, finishBlock_marks due, fun mem => ?_,
      fun mem => ?_, fun c mem => ?_⟩
    · obtain ⟨clock, report⟩ := finishBlock_clock due nodup mem
      simp only [Prod.mk.injEq] at clock
      obtain ⟨reading, isSet, left⟩ := clock
      intro r now
      rw [reading, isSet, left, show r = _ from report]
      cases load : s.clock.pendingLoad with
      | some u =>
        obtain ⟨taken, handed⟩ := clockStep_load load
        rw [taken, handed]
        exact ⟨rfl, rfl, rfl, rfl, rfl, fun v same => ⟨Option.some.inj same, rfl, rfl, rfl, rfl, rfl⟩, fun none => by cases none⟩
      | none =>
        obtain ⟨taken, handed⟩ := clockStep_advance load
        rw [taken, handed]
        exact ⟨rfl, rfl, rfl, rfl, load, (fun v some_ => by cases some_), fun _ => ⟨rfl, rfl, advanceReport_eq s⟩⟩
    · obtain ⟨⟨sample, strike, classes⟩, guard⟩ := finishBlock_classified due nodup mem
      intro a sample' changed g
      have now : g = s.guardNow := (guardNow_eq s).symm
      refine ⟨sample, ?_, ?_, fun c => ?_⟩
      · rw [now]
        exact guard
      · rw [strike]
        exact isStrike_eq ..
      · rw [classes, Quad.get_mapWith, includedClass_eq, now]
        rfl
    · obtain ⟨⟨r, results⟩, sums⟩ := finishBlock_weighed due nodup mem
      simp only [WeightUnit.sums, Prod.mk.injEq] at sums
      intro u x
      rw [show x = _ from results]
      have settled (top n : Nat) (some_ : 0 < top) : decide (bump top n = top) = decide (top - 1 ≤ n) := by
        rw [decide_eq_decide, bump]
        omega
      exact ⟨rfl, rfl, rfl, rfl, rfl, rfl, rfl, settled 1000 u.fCount (by decide), settled 5000 u.sCount (by decide), sums⟩

end Sys2Proof.Machine
end

section
/-! PROOFS. What the operations of a boundary do behind a busy transmitter; the records of a closing interval in the record FIFO
(R84, R96, R98). -/

namespace Sys2Proof.Machine

/-! ### A busy transmitter and the record FIFO (R162) -/

/-- From `s` to `t` a busy transmitter stayed as it was, and with it the record FIFO. -/
def Calm (s t : State) : Prop :=
  s.report.sending.isSome = true → t.fifo = s.fifo ∧ t.report.sending = s.report.sending

namespace Calm

variable {s t u : State}

theorem of_eq (report : t.report = s.report) (fifo : t.fifo = s.fifo) : Calm s t := fun _ => ⟨fifo, by rw [report]⟩

theorem refl (s : State) : Calm s s := of_eq rfl rfl

theorem trans (h : Calm s t) (h' : Calm t u) : Calm s u := fun busy => by
  obtain ⟨fifo, sending⟩ := h busy
  obtain ⟨fifo', sending'⟩ := h' (by rw [sending]; exact busy)
  exact ⟨fifo'.trans fifo, sending'.trans sending⟩

/-- Steps that touch neither report queue nor record FIFO do not count. -/
theorem after (h : Calm s t) (report : u.report = t.report) (fifo : u.fifo = t.fifo) : Calm s u := h.trans (of_eq report fifo)

theorem before (h : Calm t u) (report : t.report = s.report) (fifo : t.fifo = s.fifo) : Calm s u :=
  (of_eq report fifo).trans h

theorem offer (s : State) (c : Option Chan) (stamp : Stamp) (body : EventBody) : Calm s (s.offer c stamp body) := fun busy => by
  obtain ⟨m, sending⟩ := Option.isSome_iff_exists.1 busy
  refine ⟨(offer_busy busy c stamp body).1, ?_⟩
  cases passes : s.report.passes c body with
  | false => rw [offer_barred s c stamp body passes]
  | true =>
    rw [offer_sending s c stamp body m passes sending]
    dsimp only [ReportQueue.enqueue]
    split <;> rfl

theorem storeCapture (s : State) (i : Fin 16) (d : Descriptor) (stamp : Stamp) : Calm s (s.storeCapture i d stamp) :=
  (offer (s.setRole i (.stored d)) _ _ _).before rfl rfl

theorem closeCapture (s : State) (c : Chan) (id : Option Nat) (reason : CloseReason) (stamp : Stamp) :
    Calm s (s.closeCapture c id reason stamp) := by
  unfold State.closeCapture
  repeat' split
  all_goals first | exact storeCapture _ _ _ _ | exact of_eq rfl rfl

theorem closeEpisode (s : State) (c : Chan) (reason : CloseReason) (stamp : Stamp) :
    Calm s (s.closeEpisode c reason stamp) := by
  unfold State.closeEpisode
  split
  · exact refl s
  · exact ((offer s _ _ _).trans (closeCapture _ c _ reason stamp)).after rfl rfl

theorem closes (s : State) (pick : Nat → Nat) (l : List Chan) (reason : CloseReason) (stamp : State → Stamp) :
    Calm s (s.eachFreely pick l fun c u => u.closeEpisode c reason (stamp u)) :=
  eachFreely_keeps (Calm s) pick l _ (fun _ _ h => h.after rfl rfl) (fun c _ u h => h.trans (closeEpisode u c reason _)) s
    (refl s)

theorem endCheck (s : State) (e : Ending) (counted : Nat) (stamp : Stamp) : Calm s (s.endCheck e counted stamp) := by
  unfold State.endCheck
  split
  · exact refl s
  · exact refl s
  · exact (offer _ _ _ _).before (by simp) (by simp)

theorem applyCommit (s : State) (atBoundary : Bool) (stamp : Stamp) : Calm s (s.applyCommit atBoundary stamp) := by
  have committed : Calm s (s.committed atBoundary stamp) :=
    ((offer { s with store := s.store.applied } none stamp (.configApplied atBoundary)).before rfl rfl).after
      (commitGuard_report ..) (commitGuard_fifo ..)
  rw [applyCommit_eq]
  obtain ⟨-, same⟩ | ⟨-, -, -, cut⟩ :=
    commitCheck_cases (s.committed atBoundary stamp) s.store.active s.store.staged stamp
  · rwa [same]
  · rw [cut]
    exact committed.trans (endCheck _ _ _ _)

theorem commitAtOnce (s : State) (stamp : Stamp) : Calm s (s.commitAtOnce stamp) :=
  (applyCommit s false stamp).after rfl rfl

theorem heldClosed (pick : Nat → Nat) (s : State) (closed : Option Nat) : Calm s (s.heldClosed pick closed) :=
  ((offer _ _ _ _).trans (closes _ pick _ _ _)).before rfl rfl

theorem enterHeld (pick : Nat → Nat) (s : State) (closed : Option Nat) : Calm s (s.enterHeld pick closed) := by
  rw [enterHeld_eq]
  split
  · exact (heldClosed pick s closed).trans (commitAtOnce _ _)
  · exact heldClosed pick s closed

theorem openInterval (pick : Nat → Nat) (s : State) (clamps : Quad Nat) (applied : Bool) :
    Calm s (s.openInterval pick clamps applied) := (closes _ pick _ _ _).before rfl rfl

theorem enterMeasuring (pick : Nat → Nat) (s : State) : Calm s (s.enterMeasuring pick) := by
  unfold State.enterMeasuring
  split
  · exact (applyCommit s _ _).trans (openInterval pick _ _ _)
  · exact openInterval pick s _ _

end Calm

/-! ### The records of a closing interval (R84 step 1, R96, R98) -/

/-- The record of a channel of the closing interval; of an interval in which no block ended there is none. -/
def State.recordOf (s : State) (iv : Interval) (cause : CloseCause) (c : Chan) : Option IntervalRecord :=
  match iv.accs.get c with
  | none => none
  | some ac =>
    if ac.active + ac.quiet + ac.transition + ac.excluded = 0 then none
    else some (intervalRecord iv c ac (s.store.active.chan.get c) s.store.active.mode (s.monitor.get c)
      s.handed.report.ended cause s.acc.holdPending)

theorem recordChannel_eq (s : State) (iv : Interval) (cause : CloseCause) (c : Chan) :
    s.recordChannel iv cause c = match s.recordOf iv cause c with
      | none => s
      | some r => s.putRecord s.handed.report.ended r := by
  unfold State.recordChannel State.recordOf
  cases iv.accs.get c with
  | none => rfl
  | some ac =>
    dsimp only
    rw [show ac.blocks = ac.active + ac.quiet + ac.transition + ac.excluded from rfl]
    split <;> rfl

/-- The records enter one after another, each as the state before the close gives it. -/
theorem recordChannels_eq (s : State) (iv : Interval) (cause : CloseCause) :
    Chan.all.foldl (State.recordChannel iv cause) s =
      (Chan.all.filterMap (s.recordOf iv cause)).foldl (fun u r => u.putRecord s.handed.report.ended r) s := by
  have each (l : List Chan) : ∀ u : State, u.handed = s.handed → u.recordOf iv cause = s.recordOf iv cause →
      l.foldl (State.recordChannel iv cause) u =
        (l.filterMap (s.recordOf iv cause)).foldl (fun u r => u.putRecord s.handed.report.ended r) u := by
    induction l with
    | nil => exact fun _ _ _ => rfl
    | cons c l ih =>
      intro u handed same
      rw [List.foldl_cons, recordChannel_eq, same, handed, List.filterMap_cons]
      cases s.recordOf iv cause c with
      | none => exact ih u handed same
      | some r =>
        refine ih _ ((putRecord_handed ..).trans handed) (Eq.trans ?_ same)
        funext d
        unfold State.recordOf
        rw [putRecord_store, putRecord_monitor, putRecord_handed, putRecord_acc]
  exact each Chan.all s rfl rfl

/-- From `s` to `t` a report queue with room for the notices `ns`, behind a busy transmitter, has them as its newest. -/
def Says (s t : State) (ns : List Notice) : Prop :=
  ∀ n, TakesEvents s.report (ns.length + n) → t.report = { s.report with events := s.report.events ++ ns }

namespace Says

variable {s t u : State} {ns ms : List Notice}

theorem none (report : t.report = s.report) : Says s t [] := fun _ _ => by rw [report, List.append_nil]

theorem takes (h : Says s t ns) {n : Nat} (room : TakesEvents s.report (ns.length + n)) : TakesEvents t.report n := by
  have report := h n room
  obtain ⟨busy, room, kinds, chans⟩ := room
  rw [report]
  refine ⟨busy, ?_, kinds, chans⟩
  dsimp only
  rw [List.length_append]
  omega

theorem trans (h : Says s t ns) (h' : Says t u ms) : Says s u (ns ++ ms) := by
  intro n room
  rw [List.length_append, Nat.add_assoc] at room
  rw [h' _ (h.takes room), h _ room, List.append_assoc]

theorem of_offers (h : Offers s t ns) : Says s t ns := fun n room => (h n room).2

theorem after (h : Says s t ns) (report : u.report = t.report) : Says s u ns := fun n room => by
  rw [report]
  exact h n room

theorem before (h : Says t u ns) (report : t.report = s.report) : Says s u ns := fun n room => by
  rw [← report] at room ⊢
  exact h n room

theorem events (h : Says s t ns) {n : Nat} (few : ns.length ≤ n) (room : TakesEvents s.report n) :
    t.report.events = s.report.events ++ ns := by
  rw [h (n - ns.length) (by rwa [Nat.add_sub_cancel' few])]

end Says

/-- The notices of the records that the FIFO discards, the first of them counted after `n` (R98). -/
def lostNotices (stamp : Stamp) (n : Nat) (rs : List IntervalRecord) : List Notice :=
  rs.zipIdx.map fun (q, i) => ⟨none, stamp, .recordsLost q.number q.chan (min 65535 (n + i + 1))⟩

theorem lostNotices_cons (stamp : Stamp) (n : Nat) (r : IntervalRecord) (rs : List IntervalRecord) :
    lostNotices stamp n (r :: rs) =
      ⟨none, stamp, .recordsLost r.number r.chan (min 65535 (n + 1))⟩ :: lostNotices stamp (min 65535 (n + 1)) rs := by
  unfold lostNotices
  rw [List.zipIdx_cons, List.zipIdx_succ, List.map_cons, List.map_map, Nat.add_zero]
  congr 2
  funext ⟨q, i⟩
  dsimp only [Function.comp]
  rw [show min 65535 (n + (i + 1) + 1) = min 65535 (min 65535 (n + 1) + i + 1) by omega]

/-- Records enter the FIFO behind a busy transmitter: the oldest above its size are discarded, counted and reported. -/
structure Recorded (s t : State) (stamp : Stamp) (rs : List IntervalRecord) : Prop where
  sending : t.report.sending = s.report.sending
  fifo : t.fifo = (s.fifo ++ rs).drop ((s.fifo ++ rs).length - 128)
  lost : t.recordsLost =
    if (s.fifo ++ rs).length - 128 = 0 then s.recordsLost else min 65535 (s.recordsLost + ((s.fifo ++ rs).length - 128))
  told : Says s t (lostNotices stamp s.recordsLost ((s.fifo ++ rs).take ((s.fifo ++ rs).length - 128)))

theorem recorded_nil {s : State} (room : s.fifo.length ≤ 128) (stamp : Stamp) : Recorded s s stamp [] := by
  have none : (s.fifo ++ []).length - 128 = 0 := by
    rw [List.append_nil]
    omega
  refine ⟨rfl, ?_, ?_, ?_⟩
  · rw [none, List.append_nil, List.drop_zero]
  · rw [none, if_pos rfl]
  · rw [none, List.take_zero]
    exact Says.none rfl

/-- A record enters a FIFO with a place for it. -/
theorem putRecord_room {s : State} (busy : s.report.sending.isSome = true) (room : s.fifo.length < 128) (stamp : Stamp)
    (r : IntervalRecord) : s.putRecord stamp r = { s with fifo := s.fifo ++ [r] } := by
  obtain ⟨m, sending⟩ := Option.isSome_iff_exists.1 busy
  have stays : s.madeRoom stamp = s := by
    unfold State.madeRoom
    split
    · exact if_neg (Nat.not_le_of_lt room)
    · rfl
  rw [putRecord_eq, stays, transmit_sending _ m (by exact sending)]

/-- A record enters a full FIFO: the oldest makes room. -/
theorem putRecord_full {s : State} (busy : s.report.sending.isSome = true) {oldest : IntervalRecord} {rest : List IntervalRecord}
    (found : s.fifo = oldest :: rest) (full : s.fifo.length = 128) (stamp : Stamp) (r : IntervalRecord) :
    (s.putRecord stamp r).fifo = rest ++ [r] ∧ (s.putRecord stamp r).recordsLost = min 65535 (s.recordsLost + 1) ∧
      (s.putRecord stamp r).report.sending = s.report.sending ∧
      Says s (s.putRecord stamp r)
        [⟨none, stamp, .recordsLost oldest.number oldest.chan (min 65535 (s.recordsLost + 1))⟩] := by
  obtain ⟨u, u_eq⟩ : ∃ u : State, u = { s with fifo := rest, recordsLost := min 65535 (s.recordsLost + 1) } := ⟨_, rfl⟩
  have made : s.madeRoom stamp =
      u.offer none stamp (.recordsLost oldest.number oldest.chan (min 65535 (s.recordsLost + 1))) := by
    rw [u_eq]
    unfold State.madeRoom
    rw [found]
    dsimp only
    rw [← found, if_pos (show Config.fifoSize ≤ s.fifo.length from full.ge)]
    rfl
  have calm := Calm.offer u none stamp (.recordsLost oldest.number oldest.chan (min 65535 (s.recordsLost + 1)))
  have offers := Offers.one u none stamp (.recordsLost oldest.number oldest.chan (min 65535 (s.recordsLost + 1)))
  have lost := offer_recordsLost u none stamp (.recordsLost oldest.number oldest.chan (min 65535 (s.recordsLost + 1)))
  rw [← made] at calm offers lost
  have report : u.report = s.report := by rw [u_eq]
  obtain ⟨fifo, sending⟩ := calm (by rw [report]; exact busy)
  obtain ⟨m, some_⟩ := Option.isSome_iff_exists.1 busy
  rw [putRecord_eq, transmit_sending _ m (by rw [← some_, ← report]; exact sending)]
  refine ⟨?_, ?_, ?_, ((Says.of_offers offers).before report).after rfl⟩
  · dsimp only
    rw [fifo, u_eq]
  · exact lost.trans (by rw [u_eq])
  · exact sending.trans (by rw [report])

theorem putRecords_recorded (stamp : Stamp) : ∀ (rs : List IntervalRecord) (s : State), s.report.sending.isSome = true →
    s.fifo.length ≤ 128 → Recorded s (rs.foldl (fun u r => u.putRecord stamp r) s) stamp rs
  | [], s, _, room => recorded_nil room stamp
  | r :: rs, s, busy, room => by
    rw [List.foldl_cons]
    obtain short | full := Nat.lt_or_eq_of_le room
    · rw [putRecord_room busy short stamp r]
      have rest := putRecords_recorded stamp rs { s with fifo := s.fifo ++ [r] } busy (by simpa using short)
      obtain ⟨sending, fifo, lost, told⟩ := rest
      dsimp only at fifo lost told
      rw [List.append_assoc, List.singleton_append] at fifo lost told
      exact ⟨sending, fifo, lost, told.before rfl⟩
    · obtain ⟨oldest, left, found⟩ : ∃ oldest left, s.fifo = oldest :: left := by
        cases h : s.fifo with
        | nil => rw [h] at full; cases full
        | cons oldest left => exact ⟨oldest, left, rfl⟩
      obtain ⟨fifo1, lost1, sending1, told1⟩ := putRecord_full busy found full stamp r
      have length : left.length = 127 := by
        rw [found] at full
        simpa using full
      have rest := putRecords_recorded stamp rs (s.putRecord stamp r) (by rw [sending1]; exact busy) (by
        rw [fifo1]; simp [length])
      obtain ⟨sending, fifo, lost, told⟩ := rest
      rw [fifo1, List.append_assoc, List.singleton_append] at fifo lost told
      rw [lost1] at lost told
      have more : (s.fifo ++ r :: rs).length - 128 = (left ++ r :: rs).length - 128 + 1 := by
        rw [found]
        simp only [List.length_append, List.length_cons, length]
        omega
      refine ⟨sending.trans sending1, ?_, ?_, ?_⟩
      · rw [more, found, List.cons_append, List.drop_succ_cons]
        exact fifo
      · rw [more, if_neg (Nat.succ_ne_zero _), lost]
        split <;> omega
      · rw [more, found, List.cons_append, List.take_succ_cons, lostNotices_cons]
        rw [← List.singleton_append]
        exact told1.trans told

end Sys2Proof.Machine
end

section
/-! PROOFS. The entry to HELD and the opening of an interval at a boundary (R84, R85, R102, R112). -/

namespace Sys2Proof.Machine

/-- What the closes with LIMIT_REMOVED of an opening or an entry to HELD offer for a channel (R110, R112, R135). -/
def State.removedNotices (s : State) (k : Chan → Int) (c : Chan) : List Notice :=
  closingNotices s c (k c) s.handed.report.ended .limitRemoved (storedAtOnce s.capture.tailLength)

theorem removedNotices_idle {s : State} {c : Chan} (k : Chan → Int) (idle : (s.monitor.get c).episode = none) :
    s.removedNotices k c = [] := by
  unfold State.removedNotices closingNotices
  rw [idle]

theorem closeNotices_limitRemoved (s : State) (c : Chan) :
    s.closeNotices .limitRemoved s.handed.report.ended c = s.removedNotices (fun c => (s.store.active.chan.get c).k) c := by
  unfold State.closeNotices State.removedNotices
  have same : storedAtClose s.capture.tailLength .limitRemoved = storedAtOnce s.capture.tailLength :=
    funext fun d => if_neg (by decide)
  rw [same]
  rfl

theorem TailsBegun.congr {s u : State} {which which' : Chan → Prop} {rs : Vector Role 16} (h : TailsBegun s which rs)
    (episode : ∀ c, (u.monitor.get c).episode = (s.monitor.get c).episode) (capture : u.capture = s.capture)
    (same : ∀ c, which' c ↔ which c) : TailsBegun u which' rs := by
  have records (c : Chan) (e : Episode) (i : Fin 16) (d : Descriptor) : RecordedBy u c e i d ↔ RecordedBy s c e i d := by
    unfold RecordedBy
    rw [episode, capture]
  intro i
  obtain ⟨taken, others⟩ := h i
  rw [capture]
  exact ⟨fun c e d mem r => taken c e d ((same c).1 mem) ((records c e i d).1 r),
    fun none => others fun c e d mem r => none c e d ((same c).2 mem) ((records c e i d).2 r)⟩

/-! ### The entry to HELD (R84 step 2, log entry 14) -/

/-- From `u` to `b` HELD was entered, the commit offering `ns`. -/
structure HeldTaken (u b : State) (closed : Option Nat) (ns : List Notice) : Prop where
  free : u.store.commitPending = false → ns = []
  commit : u.store.commitPending = true → CommitTaken u b u.handed.report.ended false ns
  acc : b.acc = { u.acc with
    phase := .held, holdPending := false, openingPending := false, restartPending := false
    carriedConfig := u.acc.carriedConfig || u.store.commitPending
    carriedGain := b.acc.carriedGain, guardRemaining := b.acc.guardRemaining }
  gain : ∀ c, b.acc.carriedGain.get c =
    if u.store.commitPending then
      min 4294967295 (u.acc.carriedGain.get c + (u.range.get c).clampCount (u.store.staged.range.get c))
    else u.acc.carriedGain.get c
  capture : b.capture = { u.capture with regions := b.capture.regions }
  tails : TailsBegun u (fun _ => True) b.capture.regions
  told : ∃ order : List Chan, order.Perm Chan.all ∧
    Says u b (⟨none, u.handed.report.ended, .holdEntered closed⟩ ::
      order.flatMap (u.removedNotices fun c => (u.store.active.chan.get c).k) ++ ns)

section Held
variable (u : State) (closed : Option Nat)

theorem heldClosed_acc (pick : Nat → Nat) : (u.heldClosed pick closed).acc = { u.acc with
    phase := .held, holdPending := false, openingPending := false, restartPending := false } := by
  unfold State.heldClosed
  rw [closeAll_frame, offer_acc]

theorem heldClosed_channels (pick : Nat → Nat) : SameChannels u (u.heldClosed pick closed) := by
  unfold State.heldClosed
  rw [closeAll_frame]
  exact ⟨offer_check .., offer_range .., offer_unit .., offer_store ..⟩

/-- The closes of an entry to HELD, up to the commit that follows. -/
theorem heldClosed_taken (punctual : Punctual u .limitRemoved) :
    ((u.heldClosed Config.pick closed).capture =
      { u.capture with regions := (u.heldClosed Config.pick closed).capture.regions }) ∧
      TailsBegun u (fun _ => True) (u.heldClosed Config.pick closed).capture.regions ∧
      ∃ order : List Chan, order.Perm Chan.all ∧
        Says u (u.heldClosed Config.pick closed) (⟨none, u.handed.report.ended, .holdEntered closed⟩ ::
          order.flatMap (u.removedNotices fun c => (u.store.active.chan.get c).k)) := by
  obtain ⟨v, v_eq⟩ : ∃ v : State, v = { u with acc := { u.acc with
    phase := .held, holdPending := false, openingPending := false, restartPending := false } } := ⟨_, rfl⟩
  obtain ⟨w, w_eq⟩ : ∃ w : State, w = v.offer none u.handed.report.ended (.holdEntered closed) := ⟨_, rfl⟩
  have ended : v.handed.report.ended = u.handed.report.ended := by rw [v_eq]
  have monitor : v.monitor = u.monitor := by rw [v_eq]
  have whole : u.heldClosed Config.pick closed =
      w.eachFreely Config.pick w.openEpisodes fun c s => s.closeEpisode c .limitRemoved s.handed.report.ended := by
    rw [w_eq, v_eq]
    rfl
  have here : w.handed.report.ended = u.handed.report.ended := by rw [w_eq, offer_handed, ended]
  have started : ClosedOn v .limitRemoved u.handed.report.ended w []
      [⟨none, u.handed.report.ended, .holdEntered closed⟩] := by
    rw [w_eq]
    exact (ClosedOn.start v .limitRemoved u.handed.report.ended).after (offer_store ..) (offer_blockWork ..) (offer_capture ..)
      (offer_monitor ..) (Offered.one v none _ _)
  obtain ⟨order, perm, taken⟩ := eachFreely_closed started (by rw [v_eq]; exact punctual)
    (g := fun s => s.handed.report.ended) here (fun s n c => ⟨rfl, by rw [closeEpisode_handed]⟩) (openEpisodes_nodup w)
  rw [← whole] at taken
  have opened : w.openEpisodes = Chan.all.filter fun c => (u.monitor.get c).episode.isSome := by
    unfold State.openEpisodes
    rw [w_eq, offer_monitor, monitor]
  have idle (c : Chan) (none : (u.monitor.get c).episode.isSome = false) :
      v.closeNotices .limitRemoved u.handed.report.ended c = [] :=
    closeNotices_idle _ _ (by rw [monitor]; exact Option.isNone_iff_eq_none.1 (Option.isSome_eq_false_iff.1 none))
  have notices : v.closeNotices .limitRemoved u.handed.report.ended =
      u.removedNotices fun c => (u.store.active.chan.get c).k := by
    funext c
    rw [← ended, closeNotices_limitRemoved, v_eq]
    rfl
  obtain ⟨all, allPerm, same⟩ := flatMap_all_channels (opened ▸ perm) _ idle
  have tails := taken.tailsBegun (which := fun _ => True) (by decide) fun c => by
    rw [perm.mem_iff, mem_openEpisodes, w_eq, offer_monitor, true_and, and_self]
  refine ⟨taken.capture.trans (by rw [v_eq]), tails.congr (fun c => by rw [monitor]) (by rw [v_eq]) fun _ => Iff.rfl, all,
    allPerm, ?_⟩
  rw [← notices, ← same, ← List.singleton_append]
  exact (Says.of_offers taken.offered.open_).before (by rw [v_eq])

theorem enterHeld_taken (punctual : Punctual u .limitRemoved) :
    ∃ ns, HeldTaken u (u.enterHeld Config.pick closed) closed ns := by
  obtain ⟨capture, tails, order, perm, told⟩ := heldClosed_taken u closed punctual
  have acc := heldClosed_acc u closed Config.pick
  obtain ⟨check, range, unit, store⟩ := heldClosed_channels u closed Config.pick
  have whole := enterHeld_eq Config.pick u closed
  generalize u.heldClosed Config.pick closed = h at capture tails told acc check range unit store whole
  rw [store] at whole
  cases pending : u.store.commitPending with
  | false =>
    rw [pending, if_neg Bool.noConfusion] at whole
    rw [whole]
    refine ⟨[], fun _ => rfl, fun yes => absurd (pending.symm.trans yes) (by decide), ?_, fun c => ?_, capture, tails, order,
      perm, by rwa [List.append_nil]⟩
    · rw [acc, pending, Bool.or_false]
    · rw [pending, if_neg Bool.noConfusion, acc]
  | true =>
    rw [pending, if_pos rfl] at whole
    obtain ⟨ns, taken, offers⟩ := applyCommit_taken h false u.handed.report.ended
    have carried := commitAtOnce_acc h u.handed.report.ended
    have gain := commitAtOnce_carriedGain h u.handed.report.ended
    have same := commitAtOnce_capture h u.handed.report.ended
    rw [whole]
    refine ⟨ns, fun no => absurd (pending.symm.trans no) (by decide), fun _ => ?_, ?_, fun c => ?_, ?_, ?_, order, perm, ?_⟩
    · exact commitTaken_congr taken store.symm check.symm range.symm unit.symm (by rw [acc]) rfl rfl rfl rfl
    · rw [carried, acc, pending, Bool.or_true]
    · rw [gain, Quad.get_mapWith, State.clampCounts, Quad.get_mapWith, acc, range, store, pending, if_pos rfl]
      rfl
    · rw [same]
      exact capture
    · rw [same]
      exact tails
    · exact told.trans ((Says.of_offers offers).after rfl)

end Held

/-! ### The opening of an interval (R85, R102, R112) -/

/-- The monitor of a channel at an opening, before the closes (R102). -/
def State.openedMonitor (w : State) (iv : Interval) (c : Chan) : MonitorChan :=
  MonitorChan.atOpening (w.store.active.chan.get c) (iv.accs.get c) iv.nNom (w.monitor.get c)

theorem openedMonitor_episode (w : State) (iv : Interval) (c : Chan) :
    (w.openedMonitor iv c).episode = (w.monitor.get c).episode := by
  unfold State.openedMonitor MonitorChan.atOpening
  split <;> rfl

/-- From `w` to `b` the interval `iv` opened. -/
structure Opened (w b : State) (iv : Interval) : Prop where
  interval : b.interval = some iv
  clock : b.clock = { w.clock with entryInForce := some iv.entry }
  acc : b.acc = { w.acc with
    phase := .measuring, openingPending := false, restartPending := false, nextNumber := (w.acc.nextNumber + 1) % 2 ^ 32
    carriedConfig := false, carriedClock := false, carriedGain := .same 0 }
  monitor : ∀ c, b.monitor.get c =
    if (w.openedMonitor iv c).lmax = none then (w.openedMonitor iv c).closed else w.openedMonitor iv c
  capture : b.capture = { w.capture with regions := b.capture.regions }
  tails : TailsBegun w (fun c => (w.openedMonitor iv c).lmax = none) b.capture.regions
  told : ∃ order : List Chan, order.Perm Chan.all ∧ Says w b (order.flatMap fun c =>
    if (w.openedMonitor iv c).lmax = none then w.removedNotices (fun c => (w.store.active.chan.get c).k) c else [])

theorem Opened.lmax {w b : State} {iv : Interval} (h : Opened w b iv) (c : Chan) :
    (b.monitor.get c).lmax = (w.openedMonitor iv c).lmax := by
  rw [h.monitor]
  split
  · exact MonitorChan.closed_lmax _
  · rfl

theorem openInterval_opened (w : State) (clamps : Quad Nat) (applied : Bool) (punctual : Punctual w .limitRemoved) :
    Opened w (w.openInterval Config.pick clamps applied)
      (w.newInterval clamps applied (lookup w.store.active.schedule w.handed.report.reading)) := by
  obtain ⟨iv, iv_eq⟩ : ∃ iv, iv = w.newInterval clamps applied (lookup w.store.active.schedule w.handed.report.reading) :=
    ⟨_, rfl⟩
  obtain ⟨v, v_eq⟩ : ∃ v : State, v = { w with
    interval := some iv
    clock := { w.clock with entryInForce := some iv.entry }
    acc := { w.acc with
      phase := .measuring, openingPending := false, restartPending := false, nextNumber := (w.acc.nextNumber + 1) % 2 ^ 32
      carriedConfig := false, carriedClock := false, carriedGain := .same 0 }
    monitor := w.monitor.mapWith fun c m =>
      MonitorChan.atOpening (w.store.active.chan.get c) (iv.accs.get c) iv.nNom m } := ⟨_, rfl⟩
  have whole : w.openInterval Config.pick clamps applied = v.eachFreely Config.pick
      (v.openEpisodes.filter fun c => (v.monitor.get c).lmax.isNone)
      fun c s => s.closeEpisode c .limitRemoved s.handed.report.ended := by
    rw [v_eq, iv_eq]
    rfl
  rw [← iv_eq, whole]
  have frame := closeAll_frame v Config.pick (v.openEpisodes.filter fun c => (v.monitor.get c).lmax.isNone) .limitRemoved
    fun s => s.handed.report.ended
  have monitor (c : Chan) : v.monitor.get c = w.openedMonitor iv c := by
    rw [v_eq]
    exact Quad.get_mapWith ..
  have episode (c : Chan) : (v.monitor.get c).episode = (w.monitor.get c).episode := by
    rw [monitor]
    exact openedMonitor_episode w iv c
  have member (c : Chan) : c ∈ (v.openEpisodes.filter fun c => (v.monitor.get c).lmax.isNone) ↔
      (w.monitor.get c).episode.isSome = true ∧ (w.openedMonitor iv c).lmax = none := by
    rw [List.mem_filter, mem_openEpisodes, episode, monitor, Option.isNone_iff_eq_none]
  have closes (c : Chan) := eachFreely_monitor (fun c u => closeEpisode_monitor (s := u) (c := c) (reason := .limitRemoved)
    (stamp := u.handed.report.ended)) Config.pick (v.openEpisodes.filter fun c => (v.monitor.get c).lmax.isNone) v c
  have perm' : (v.openEpisodes.filter fun c => (v.monitor.get c).lmax.isNone).Nodup := (openEpisodes_nodup v).filter _
  obtain ⟨order, perm, taken⟩ := eachFreely_closed (ClosedOn.start v .limitRemoved w.handed.report.ended)
    (by rw [v_eq]; exact punctual) (g := fun s => s.handed.report.ended) (by rw [v_eq])
    (fun s n c => ⟨rfl, by rw [closeEpisode_handed]⟩) perm'
  generalize (v.eachFreely Config.pick (v.openEpisodes.filter fun c => (v.monitor.get c).lmax.isNone)
    fun c s => s.closeEpisode c .limitRemoved s.handed.report.ended) = b at frame closes taken
  refine ⟨?_, ?_, ?_, fun c => ?_, taken.capture.trans (by rw [v_eq]), ?_, ?_⟩
  · rw [frame, v_eq]
  · rw [frame, v_eq]
  · rw [frame, v_eq]
  · rw [closes, monitor]
    by_cases none : (w.openedMonitor iv c).lmax = none
    · rw [if_pos none]
      split
      · rfl
      next idle =>
        refine (closed_of_idle ?_).symm
        rw [openedMonitor_episode]
        by_contra opened
        exact idle ((member c).2 ⟨Option.isSome_iff_ne_none.2 opened, none⟩)
    · rw [if_neg none, if_neg fun mem => none ((member c).1 mem).2]
  · refine (taken.tailsBegun (which := fun c => (w.openedMonitor iv c).lmax = none) (by decide) fun c => ?_).congr
      (fun c => (episode c).symm) (by rw [v_eq]) fun _ => Iff.rfl
    rw [perm.mem_iff, member, episode]
    tauto
  · obtain ⟨f, f_eq⟩ : ∃ f : Chan → List Notice, f = fun c =>
        if (w.openedMonitor iv c).lmax = none then w.removedNotices (fun c => (w.store.active.chan.get c).k) c else [] :=
      ⟨_, rfl⟩
    have notices (c : Chan) (mem : c ∈ order) : v.closeNotices .limitRemoved w.handed.report.ended c = f c := by
      have same : v.closeNotices .limitRemoved v.handed.report.ended c =
          w.removedNotices (fun c => (w.store.active.chan.get c).k) c := by
        rw [closeNotices_limitRemoved]
        unfold State.removedNotices closingNotices
        rw [episode, v_eq]
      rw [f_eq]
      dsimp only
      rw [if_pos ((member c).1 (perm.mem_iff.1 mem)).2, ← same, v_eq]
    have filtered : (v.openEpisodes.filter fun c => (v.monitor.get c).lmax.isNone) = Chan.all.filter fun c =>
        (v.monitor.get c).lmax.isNone && (v.monitor.get c).episode.isSome := List.filter_filter ..
    obtain ⟨all, allPerm, same⟩ := flatMap_all_channels (filtered ▸ perm) f fun c silent => by
      rw [f_eq]
      dsimp only
      split
      next none =>
        rw [monitor, none, Option.isNone_none, Bool.true_and, openedMonitor_episode, Option.isSome_eq_false_iff,
          Option.isNone_iff_eq_none] at silent
        exact removedNotices_idle _ silent
      next => rfl
    refine ⟨all, allPerm, ?_⟩
    rw [← f_eq, ← same, ← List.flatMap_congr notices]
    have told := (Says.of_offers taken.offered.open_).before (s := w) (by rw [v_eq])
    rwa [List.nil_append] at told

end Sys2Proof.Machine
end

section
/-! PROOFS. The boundary operation by what closes and what opens (R73, R83 to R85), and a block end with it alone before the alert
line and the live step. -/

namespace Sys2Proof.Machine

/-! ### The entry to MEASURING (R84 step 3, R85) -/

/-- From `u` to `b` an interval opened, a pending commit applied before it offering `ns`. -/
structure MeasuringTaken (u b : State) (ns : List Notice) : Prop where
  free : u.store.commitPending = false → ns = []
  commit : u.store.commitPending = true → CommitTaken u b u.handed.report.ended true ns
  acc : b.acc = { u.acc with
    phase := .measuring, openingPending := false, restartPending := false, nextNumber := (u.acc.nextNumber + 1) % 2 ^ 32
    carriedConfig := false, carriedClock := false, carriedGain := .same 0, guardRemaining := b.acc.guardRemaining }
  capture : b.capture = { u.capture with regions := b.capture.regions }
  tails : TailsBegun u (fun c => (b.monitor.get c).lmax = none) b.capture.regions
  told : ∃ order : List Chan, order.Perm Chan.all ∧ Says u b (ns ++ order.flatMap fun c =>
    if (b.monitor.get c).lmax = none then u.removedNotices (fun c => (u.store.atBoundary.active.chan.get c).k) c else [])
  opened : ∃ iv : Interval, b.interval = some iv ∧ b.clock = { u.clock with entryInForce := some iv.entry } ∧
    iv = {
      number := u.acc.nextNumber, openTime := u.handed.report.reading
      entry := lookup u.store.atBoundary.active.schedule u.handed.report.reading
      nNom := nominalSamples (u.store.atBoundary.active.base * u.store.atBoundary.active.factor) u.handed.report.reading
      gap := false, configApplied := u.store.commitPending || u.acc.carriedConfig
      clockSet := u.handed.report.load || u.acc.carriedClock, strikes := 0, accs := iv.accs } ∧
    (∀ c, ∃ g, iv.accs.get c =
      if (u.store.atBoundary.active.chan.get c).enable then
        some (.opened
          (effectiveLimits u.store.atBoundary.active.schedule (u.store.atBoundary.active.chan.get c).limitOffset iv.entry)
          (min 4294967295 (u.acc.carriedGain.get c +
            if u.store.commitPending then (u.range.get c).clampCount (u.store.staged.range.get c) else 0)) g)
      else none) ∧
    ∀ c, let m := MonitorChan.atOpening (u.store.atBoundary.active.chan.get c) (iv.accs.get c) iv.nNom (u.monitor.get c)
      b.monitor.get c = if m.lmax = none then m.closed else m

/-- The opening behind what a pending commit leaves. -/
theorem measuring_of_opened {u w b : State} {ns : List Notice} {clamps : Quad Nat} {applied : Bool}
    (opened : Opened w b (w.newInterval clamps applied (lookup w.store.active.schedule w.handed.report.reading)))
    (free : u.store.commitPending = false → ns = [])
    (commit : u.store.commitPending = true → CommitTaken u b u.handed.report.ended true ns)
    (acc : w.acc = { u.acc with guardRemaining := w.acc.guardRemaining }) (active : w.store.active = u.store.atBoundary.active)
    (monitor : w.monitor = u.monitor) (capture : w.capture = u.capture) (handed : w.handed = u.handed) (clock : w.clock = u.clock)
    (mark : applied = u.store.commitPending)
    (counts : ∀ c, clamps.get c =
      if u.store.commitPending then (u.range.get c).clampCount (u.store.staged.range.get c) else 0)
    (told : Says u w ns) : MeasuringTaken u b ns := by
  obtain ⟨iv, iv_eq⟩ : ∃ iv, iv = w.newInterval clamps applied (lookup w.store.active.schedule w.handed.report.reading) :=
    ⟨_, rfl⟩
  rw [← iv_eq] at opened
  have monitors (c : Chan) : w.openedMonitor iv c =
      MonitorChan.atOpening (u.store.atBoundary.active.chan.get c) (iv.accs.get c) iv.nNom (u.monitor.get c) := by
    unfold State.openedMonitor
    rw [active, monitor]
  have notices : w.removedNotices (fun c => (w.store.active.chan.get c).k) =
      u.removedNotices (fun c => (u.store.atBoundary.active.chan.get c).k) := by
    funext c
    unfold State.removedNotices closingNotices
    rw [monitor, capture, handed, active]
  obtain ⟨order, perm, closes⟩ := opened.told
  refine ⟨free, commit, ?_, by rw [← capture]; exact opened.capture, ?_, ⟨order, perm, ?_⟩, iv, opened.interval,
    by rw [← clock]; exact opened.clock, ?_, fun c => ⟨(w.range.get c).gain, ?_⟩, fun c => ?_⟩
  · rw [opened.acc, acc]
  · exact opened.tails.congr (fun c => by rw [monitor]) capture.symm fun c => by rw [opened.lmax]
  · simp only [opened.lmax, ← notices]
    exact told.trans closes
  · have number : w.acc.nextNumber = u.acc.nextNumber := by rw [acc]
    have config : w.acc.carriedConfig = u.acc.carriedConfig := by rw [acc]
    have load : w.acc.carriedClock = u.acc.carriedClock := by rw [acc]
    rw [iv_eq, ← active, ← handed, ← number, ← config, ← load, ← mark]
    rfl
  · have gain : w.acc.carriedGain = u.acc.carriedGain := by rw [acc]
    rw [← counts, ← gain, ← active, iv_eq]
    exact Quad.get_mapWith ..
  · dsimp only
    rw [← monitors]
    exact opened.monitor c

theorem enterMeasuring_taken (u : State) (punctual : Punctual u .limitRemoved) :
    ∃ ns, MeasuringTaken u (u.enterMeasuring Config.pick) ns := by
  cases pending : u.store.commitPending with
  | false =>
    have whole : u.enterMeasuring Config.pick = u.openInterval Config.pick (.same 0) false :=
      if_neg (by rw [pending]; exact Bool.noConfusion)
    have active : u.store.active = u.store.atBoundary.active := by
      unfold Store.atBoundary
      rw [pending]
      rfl
    rw [whole]
    exact ⟨[], measuring_of_opened (openInterval_opened u (.same 0) false punctual) (fun _ => rfl)
      (fun yes => absurd (pending.symm.trans yes) (by decide)) rfl active rfl rfl rfl rfl pending.symm
      (fun c => by rw [pending, Quad.get_same, if_neg Bool.noConfusion]) (Says.none rfl)⟩
  | true =>
    have whole : u.enterMeasuring Config.pick =
        (u.applyCommit true u.handed.report.ended).openInterval Config.pick (u.clampCounts u.store.staged) true := if_pos pending
    obtain ⟨ns, taken, offers⟩ := applyCommit_taken u true u.handed.report.ended
    have acc := applyCommit_acc u true u.handed.report.ended
    have active : (u.applyCommit true u.handed.report.ended).store.active = u.store.atBoundary.active := by
      rw [applyCommit_store]
      unfold Store.atBoundary
      rw [pending]
      rfl
    have monitor := applyCommit_monitor u true u.handed.report.ended
    have capture := applyCommit_capture u true u.handed.report.ended
    have handed := applyCommit_handed u true u.handed.report.ended
    have clock := applyCommit_clock u true u.handed.report.ended
    have work := applyCommit_blockWork u true u.handed.report.ended
    rw [whole]
    generalize u.applyCommit true u.handed.report.ended = w at taken offers acc active monitor capture handed clock work
    have punctual : Punctual w .limitRemoved := fun c late => punctual c (by
      unfold State.captureStepDue at late ⊢
      rw [← work]
      exact late)
    have opened := openInterval_opened w (u.clampCounts u.store.staged) true punctual
    refine ⟨ns, measuring_of_opened opened (fun no => absurd (pending.symm.trans no) (by decide)) (fun _ => ?_) acc active
      monitor capture handed clock pending.symm (fun c => ?_) (Says.of_offers offers)⟩
    · exact commitTaken_congr taken rfl rfl rfl rfl rfl (openInterval_check ..) (openInterval_range ..) (openInterval_unit ..)
        (by rw [opened.acc])
    · rw [State.clampCounts, Quad.get_mapWith, pending, if_pos rfl]

/-- A commit offers CONFIG_APPLIED, and CHECK_DONE at most (R81, R157). -/
theorem commitTaken_length_le {s t : State} {stamp : Stamp} {atBoundary : Bool} {ns : List Notice}
    (h : CommitTaken s t stamp atBoundary ns) : ns.length ≤ 2 := by
  obtain ⟨-, calm, cut⟩ := h
  by_cases disturbed : ∀ p, Running s p → Undisturbed s.store.active s.store.staged p.chan
  · rw [(calm disturbed).2.1]
    exact Nat.le_succ 1
  · obtain ⟨p, running, disturbs⟩ : ∃ p, Running s p ∧ ¬Undisturbed s.store.active s.store.staged p.chan := by
      by_contra none
      exact disturbed fun p running => not_not.1 fun h => none ⟨p, running, h⟩
    rw [(cut p running disturbs).2.1]
    exact Nat.le_refl 2

/-! ### The boundary operation by what closes (R73, R83, R84, R89) -/

/-- The interval that closes at the block end, with its cause (R83). -/
def State.closing (s : State) : Option (Interval × CloseCause) :=
  match s.interval, s.closeCause with
  | some iv, some x => some (iv, x)
  | _, _ => none

/-- The records of the closing interval. -/
def State.closingRecords (s : State) : List IntervalRecord :=
  match s.closing with
  | none => []
  | some (iv, x) => Chan.all.filterMap (s.recordOf iv x)

/-- The state behind the close of the interval; with none open, the mark of a load at which HELD is entered (R84 step 1, R89). -/
def State.readied (s : State) : State :=
  match s.closing with
  | some (iv, x) => s.closeInterval iv x
  | none => if s.acc.holdPending && s.handed.report.load then s.carryClock else s

/-- Something closes or opens at the block end (R73 steps 3 and 4). -/
def State.atBoundary (s : State) : Bool := s.closing.isSome || s.interval.isNone && s.openingDue

theorem closing_some {s : State} {iv : Interval} {x : CloseCause} :
    s.closing = some (iv, x) ↔ s.interval = some iv ∧ s.closeCause = some x := by
  unfold State.closing
  cases s.interval <;> cases s.closeCause <;> simp

theorem closing_of_none {s : State} (none : s.interval = none) : s.closing = Option.none := by
  unfold State.closing
  rw [none]

theorem boundaryStep_readied {s : State} (some_ : s.atBoundary = true) (pick : Nat → Nat) :
    s.boundaryStep pick =
      if s.acc.holdPending then s.readied.enterHeld pick (s.closing.map fun x => x.1.number)
      else s.readied.enterMeasuring pick := by
  unfold State.boundaryStep State.readied
  cases interval : s.interval with
  | none =>
    have due : s.openingDue = true := by
      unfold State.atBoundary at some_
      rw [closing_of_none interval, interval] at some_
      exact some_
    rw [closing_of_none interval]
    dsimp only
    rw [if_pos due]
    unfold State.openingBoundary
    cases s.acc.holdPending
    · rfl
    · rw [if_pos rfl, if_pos rfl, Bool.true_and, Option.map_none]
  | some iv =>
    obtain ⟨x, cause⟩ : ∃ x, s.closeCause = some x := by
      unfold State.atBoundary State.closing at some_
      rw [interval] at some_
      cases cause : s.closeCause with
      | none => rw [cause] at some_; cases some_
      | some x => exact ⟨x, rfl⟩
    rw [cause, closing_some.2 ⟨interval, cause⟩]
    dsimp only
    rw [closeInterval_acc]
    rfl

theorem boundaryStep_quiet {s : State} (none : s.atBoundary = false) (pick : Nat → Nat) :
    s.boundaryStep pick = if s.interval.isNone && s.handed.report.load then s.carryClock else s := by
  unfold State.atBoundary at none
  obtain ⟨noClose, noOpen⟩ := Bool.or_eq_false_iff.1 none
  unfold State.boundaryStep
  cases interval : s.interval with
  | none =>
    rw [interval] at noOpen
    dsimp only
    rw [if_neg (by rw [show s.openingDue = false from noOpen]; exact Bool.noConfusion)]
    rfl
  | some iv =>
    unfold State.closing at noClose
    rw [interval] at noClose
    cases cause : s.closeCause with
    | none => rfl
    | some x => rw [cause] at noClose; cases noClose

/-- What the close leaves but for the record FIFO, its count and the notices. -/
structure Readied (s u : State) : Prop where
  store : u.store = s.store
  range : u.range = s.range
  unit : u.unit = s.unit
  check : u.check = s.check
  capture : u.capture = s.capture
  handed : u.handed = s.handed
  work : u.blockWork = s.blockWork
  interval : s.closing.isSome = true ∨ s.interval = none → u.interval = none
  clock : u.clock = { s.clock with entryInForce := if s.closing.isSome then none else s.clock.entryInForce }
  acc : u.acc = { s.acc with
    carriedClock := s.acc.carriedClock || (s.closing.isNone && s.acc.holdPending && s.handed.report.load) }
  monitor : ∀ c, u.monitor.get c = if s.closing.isSome then (s.monitor.get c).dropThresholds else s.monitor.get c

theorem readied_taken (s : State) : Readied s s.readied := by
  unfold State.readied
  cases closing : s.closing with
  | none =>
    dsimp only
    split
    next load =>
      refine ⟨rfl, rfl, rfl, rfl, rfl, rfl, rfl, fun h => ?_, ?_, ?_, fun c => ?_⟩
      · rw [closing] at h
        exact h.resolve_left Bool.noConfusion
      · rw [closing]
        rfl
      · rw [closing]
        unfold State.carryClock
        rw [Option.isNone_none, Bool.true_and, load, Bool.or_true]
      · rw [closing]
        rfl
    next noLoad =>
      refine ⟨rfl, rfl, rfl, rfl, rfl, rfl, rfl, fun h => ?_, ?_, ?_, fun c => ?_⟩
      · rw [closing] at h
        exact h.resolve_left Bool.noConfusion
      · rw [closing]
        rfl
      · rw [closing, Option.isNone_none, Bool.true_and, Bool.eq_false_iff.2 noLoad, Bool.or_false]
      · rw [closing]
        rfl
  | some x =>
    obtain ⟨iv, cause⟩ := x
    dsimp only
    refine ⟨closeInterval_store .., closeInterval_range .., closeInterval_unit .., closeInterval_check ..,
      closeInterval_capture .., closeInterval_handed .., closeInterval_blockWork .., fun _ => rfl, ?_, ?_, fun c => ?_⟩
    · rw [closing]
      unfold State.closeInterval
      simp [Chan.all]
    · rw [closing, closeInterval_acc]
      simp
    · rw [closing]
      exact closeInterval_monitor s iv cause c

/-- The records of the close, behind a busy transmitter. -/
theorem readied_recorded {s : State} (busy : s.report.sending.isSome = true) (room : s.fifo.length ≤ 128) :
    Recorded s s.readied s.handed.report.ended s.closingRecords := by
  unfold State.readied State.closingRecords
  cases s.closing with
  | none =>
    dsimp only
    obtain ⟨sending, fifo, lost, told⟩ := recorded_nil room s.handed.report.ended
    split
    · exact ⟨sending, fifo, lost, told.after rfl⟩
    · exact ⟨sending, fifo, lost, told⟩
  | some x =>
    obtain ⟨iv, cause⟩ := x
    dsimp only
    obtain ⟨sending, fifo, lost, told⟩ :=
      putRecords_recorded s.handed.report.ended (Chan.all.filterMap (s.recordOf iv cause)) s busy room
    rw [← recordChannels_eq] at sending fifo lost told
    exact ⟨sending, fifo, lost, told.after rfl⟩

theorem closingRecords_length_le (s : State) : s.closingRecords.length ≤ 4 := by
  unfold State.closingRecords
  split
  · exact Nat.zero_le _
  · exact (List.length_filterMap_le _ Chan.all).trans (by decide)

/-! ### A block end with boundary, alert line and live step due -/

theorem liveStep_busy {x : State} (busy : x.report.sending.isSome = true) :
    x.liveStep = { x with
      image := x.liveStep.image
      report := { x.report with
        liveCounter := x.liveStep.report.liveCounter, liveSlot := x.liveStep.report.liveSlot
        liveOverwritten := x.liveStep.report.liveOverwritten } } := by
  obtain ⟨m, sending⟩ := Option.isSome_iff_exists.1 busy
  unfold State.liveStep
  dsimp only
  split
  · split
    · unfold State.putLive
      rw [transmit_sending _ m (by exact sending)]
      rfl
    · rfl
  · rfl

/-- The state in which the boundary operation of such a block end is taken. -/
def State.atBoundaryStep (s : State) : State := { s with choice := s.choice + 3, blockWork := some [.alert, .live] }

/-- Alert line, live step and end of the block leave what the boundary operation made. -/
theorem finishBlock_boundary {s : State} (due : s.blockWork = some [.boundary, .alert, .live])
    (busy : (s.atBoundaryStep.boundaryStep Config.pick).report.sending.isSome = true) :
    ∃ (alert : AlertLine) (image : LiveImage) (counter : Nat) (slot : Option LiveReport) (overwritten : Nat)
      (marks : Quad Bool),
      let b := s.atBoundaryStep.boundaryStep Config.pick
      s.finishBlock Config.pick = { b with
        alert, image, blockWork := none
        report := { b.report with liveCounter := counter, liveSlot := slot, liveOverwritten := overwritten }
        acc := { b.acc with checkInBlock := marks }
        capture := { b.capture with closeBlock := .same false } } := by
  have order : schedule ready Config.pick 3 s.choice [Task.boundary, .alert, .live] = [.boundary, .alert, .live] := rfl
  have work : (s.atBoundaryStep.boundaryStep Config.pick).blockWork = some [.alert, .live] := boundaryStep_blockWork ..
  have steps : s.finishBlock Config.pick = State.endOfBlock (State.liveStep
      { State.alertStep { s.atBoundaryStep.boundaryStep Config.pick with blockWork := some [.live] } with
        blockWork := some [] }) := by
    have begun : s.finishBlock Config.pick =
        (runTasks Config.pick [.alert, .live] (s.atBoundaryStep.boundaryStep Config.pick)).endOfBlock := by
      unfold State.finishBlock State.takeSteps
      rw [due]
      dsimp only [List.length]
      rw [order, runTasks]
      rfl
    rw [begun, runTasks, work]
    rfl
  generalize s.atBoundaryStep.boundaryStep Config.pick = b at busy steps
  have lived := liveStep_busy (x := { State.alertStep { b with blockWork := some [.live] } with blockWork := some [] }) busy
  rw [steps, lived]
  exact ⟨_, _, _, _, _, _, rfl⟩

end Sys2Proof.Machine
end

section
/-! PROOFS. The boundary operation behind a busy transmitter: HELD entered or an interval opened, with records, commit,
closes and notices in their order (R81, R84, R85, R89, R98, R112). -/

namespace Sys2Proof.Machine

/-- A message in transmission stays while events are offered and records enter (R162). -/
theorem sending_queueKept (m : Message) : QueueKept fun s => s.report.sending = some m where
  quiet _ _ _ _ report _ h := by rw [report]; exact h
  offer s c stamp body h := ((Calm.offer s c stamp body) (by rw [h]; rfl)).2.trans h
  putRecord s stamp r h := by
    have made : (s.madeRoom stamp).report.sending = some m := by
      unfold State.madeRoom
      split
      · split
        · exact ((Calm.offer _ _ _ _) (by exact (by rw [h]; rfl))).2.trans h
        · exact h
      · exact h
    rw [putRecord_eq, transmit_sending _ m (by exact made)]
    exact made
  move _ _ _ h := h

theorem boundaryStep_busy {s : State} (busy : s.report.sending.isSome = true) :
    (s.boundaryStep Config.pick).report.sending.isSome = true := by
  obtain ⟨m, sending⟩ := Option.isSome_iff_exists.1 busy
  have kept : (s.boundaryStep Config.pick).report.sending = some m :=
    (sending_queueKept m).task .boundary (by decide) s sending
  rw [kept]
  rfl

/-- A boundary finds no close late when no capture step is due. -/
theorem punctual_atBoundaryStep (s : State) : Punctual s.atBoundaryStep .limitRemoved := fun _ late => by
  cases late.2

theorem removedNotices_length_le (s : State) (k : Chan → Int) (c : Chan) : (s.removedNotices k c).length ≤ 2 := by
  unfold State.removedNotices closingNotices
  split
  · exact Nat.zero_le _
  · split
    · split
      · unfold storedAtOnce
        split
        · exact Nat.le_refl 2
        · exact Nat.le_succ 1
      · exact Nat.le_succ 1
    · exact Nat.le_succ 1

/-- What every channel's closes offer in any order is 8 notices at most. -/
theorem closes_length_le {order : List Chan} (perm : order.Perm Chan.all) {f : Chan → List Notice}
    (few : ∀ c, (f c).length ≤ 2) :
    (order.flatMap f).length ≤ 8 := by
  rw [(perm.flatMap_right f).length_eq]
  have c1 := few .ch1
  have c2 := few .ch2
  have c3 := few .ch3
  have c4 := few .ch4
  simp only [Chan.all, List.flatMap_cons, List.flatMap_nil, List.length_append, List.length_nil]
  omega

theorem lostNotices_length_le (stamp : Stamp) (n : Nat) (rs : List IntervalRecord) (k : Nat) :
    (lostNotices stamp n (rs.take k)).length ≤ k := by
  unfold lostNotices
  rw [List.length_map, List.length_zipIdx, List.length_take]
  exact Nat.min_le_left ..

section Boundary

variable {v : State} (some_ : v.atBoundary = true)
include some_

theorem closing_isNone : v.closing.isNone = v.interval.isNone := by
  unfold State.atBoundary at some_
  cases closing : v.closing with
  | none =>
    rw [closing, Option.isSome_none, Bool.false_or, Bool.and_eq_true] at some_
    exact some_.1.symm
  | some x =>
    obtain ⟨iv, cause⟩ := x
    rw [(closing_some.1 closing).1]
    rfl

theorem readied_interval : v.readied.interval = none := by
  refine (readied_taken v).interval ?_
  cases closing : v.closing with
  | some x => exact .inl rfl
  | none =>
    have none := closing_isNone some_
    rw [closing] at none
    exact .inr (Option.isNone_iff_eq_none.1 none.symm)

omit some_ in
theorem readied_punctual (punctual : Punctual v .limitRemoved) :
    Punctual v.readied .limitRemoved := fun c late => punctual c (by
  unfold State.captureStepDue at late ⊢
  rw [← (readied_taken v).work]
  exact late)

omit some_ in
theorem readied_episode (c : Chan) : (v.readied.monitor.get c).episode = (v.monitor.get c).episode := by
  rw [(readied_taken v).monitor]
  split <;> rfl

omit some_ in
theorem readied_removedNotices (k : Chan → Int) : v.readied.removedNotices k = v.removedNotices k := by
  funext c
  unfold State.removedNotices closingNotices
  rw [readied_episode, (readied_taken v).capture, (readied_taken v).handed]

omit some_ in
theorem atBoundary_eq (st : Store) :
    st.atBoundary = ⟨st.staged, if st.commitPending then st.staged else st.active, false⟩ := by
  unfold Store.atBoundary
  cases pending : st.commitPending
  · rw [if_neg Bool.noConfusion, if_neg Bool.noConfusion, ← pending]
  · rfl

theorem boundaryStep_atBoundary_store : (v.boundaryStep Config.pick).store = v.store.atBoundary := by
  rw [boundaryStep_readied some_]
  split
  · rw [enterHeld_store, (readied_taken v).store]
  · rw [enterMeasuring_store, (readied_taken v).store]

/-- The record FIFO and its count behind the whole boundary operation (R98). -/
theorem boundaryStep_fifo (busy : v.report.sending.isSome = true) (room : v.fifo.length ≤ 128) :
    (v.boundaryStep Config.pick).fifo =
        (v.fifo ++ v.closingRecords).drop ((v.fifo ++ v.closingRecords).length - 128) ∧
      (v.boundaryStep Config.pick).recordsLost =
        if (v.fifo ++ v.closingRecords).length - 128 = 0 then v.recordsLost
        else min 65535 (v.recordsLost + ((v.fifo ++ v.closingRecords).length - 128)) := by
  obtain ⟨sending, fifo, lost, -⟩ := readied_recorded busy room
  have busy : v.readied.report.sending.isSome = true := by rw [sending]; exact busy
  rw [boundaryStep_readied some_, ← fifo, ← lost]
  split
  · exact ⟨(Calm.enterHeld _ _ _ busy).1, enterHeld_recordsLost ..⟩
  · exact ⟨(Calm.enterMeasuring _ _ busy).1, enterMeasuring_recordsLost ..⟩

omit some_ in
/-- The commit that `CommitTaken` speaks of finds what the close leaves. -/
theorem commitTaken_readied {b : State} {stamp : Stamp} {atBoundary : Bool} {ns : List Notice}
    (h : CommitTaken v.readied b stamp atBoundary ns) : CommitTaken v b stamp atBoundary ns := by
  have kept := readied_taken v
  exact commitTaken_congr h kept.store.symm kept.check.symm kept.range.symm kept.unit.symm (by rw [kept.acc]) rfl rfl rfl rfl

omit some_ in
/-- The notices of a boundary operation: those of lost records first. -/
theorem boundary_events {b : State} {ns : List Notice} (busy : v.report.sending.isSome = true) (room : v.fifo.length ≤ 128)
    (told : Says v.readied b ns) (few : ns.length ≤ 11) (takes : TakesEvents v.report 15) :
    b.report.events = v.report.events ++
      lostNotices v.handed.report.ended v.recordsLost
        ((v.fifo ++ v.closingRecords).take ((v.fifo ++ v.closingRecords).length - 128)) ++ ns := by
  have said := (readied_recorded busy room).told.trans told
  rw [said.events ?_ takes, List.append_assoc]
  have lost := lostNotices_length_le v.handed.report.ended v.recordsLost (v.fifo ++ v.closingRecords)
    ((v.fifo ++ v.closingRecords).length - 128)
  have records := closingRecords_length_le v
  rw [List.length_append] at lost
  rw [List.length_append, List.length_append (as := v.fifo)]
  omega

omit some_ in
/-- The thresholds of an opening are formed anew, whether or not a close dropped those before (R102). -/
theorem readied_atOpening (set : ChannelSettings) (acc : Option ChannelAcc) (n : Nat) (c : Chan) :
    MonitorChan.atOpening set acc n (v.readied.monitor.get c) = MonitorChan.atOpening set acc n (v.monitor.get c) := by
  rw [(readied_taken v).monitor]
  split
  · cases acc <;> rfl
  · rfl

end Boundary

theorem boundaryStep_capture {v : State} (punctual : Punctual v .limitRemoved) :
    (v.boundaryStep Config.pick).capture = { v.capture with regions := (v.boundaryStep Config.pick).capture.regions } := by
  have kept := readied_taken v
  cases some_ : v.atBoundary with
  | false =>
    rw [boundaryStep_quiet some_]
    split <;> rfl
  | true =>
    rw [boundaryStep_readied some_]
    split
    · obtain ⟨ns, taken⟩ := enterHeld_taken v.readied (v.closing.map fun x => x.1.number) (readied_punctual punctual)
      exact taken.capture.trans (by rw [kept.capture])
    · obtain ⟨ns, taken⟩ := enterMeasuring_taken v.readied (readied_punctual punctual)
      exact taken.capture.trans (by rw [kept.capture])

/-! ### HELD entered at a boundary (R84 step 2) -/

/-- The notices of the records that the FIFO discards at the close (R98). -/
def State.closeLosses (s : State) : List Notice :=
  lostNotices s.handed.report.ended s.recordsLost
    ((s.fifo ++ s.closingRecords).take ((s.fifo ++ s.closingRecords).length - 128))

/-- From `v` to `b` the boundary operation entered HELD, the commit offering `ns`. -/
structure HeldBoundary (v b : State) (ns : List Notice) : Prop where
  free : v.store.commitPending = false → ns = []
  commit : v.store.commitPending = true → CommitTaken v b v.handed.report.ended false ns
  interval : b.interval = none
  clock : b.clock = { v.clock with entryInForce := if v.closing.isSome then none else v.clock.entryInForce }
  acc : b.acc = { v.acc with
    phase := .held, holdPending := false, openingPending := false, restartPending := false
    carriedConfig := v.acc.carriedConfig || v.store.commitPending
    carriedClock := v.acc.carriedClock || (v.interval.isNone && v.handed.report.load)
    carriedGain := b.acc.carriedGain, guardRemaining := b.acc.guardRemaining }
  gain : ∀ c, b.acc.carriedGain.get c =
    if v.store.commitPending then
      min 4294967295 (v.acc.carriedGain.get c + (v.range.get c).clampCount (v.store.staged.range.get c))
    else v.acc.carriedGain.get c
  monitor : ∀ c, b.monitor.get c =
    MonitorChan.closed (if v.closing.isSome then (v.monitor.get c).dropThresholds else v.monitor.get c)
  tails : TailsBegun v (fun _ => True) b.capture.regions
  told : v.fifo.length ≤ 128 → TakesEvents v.report 15 → ∃ order : List Chan, order.Perm Chan.all ∧
    b.report.events = v.report.events ++ v.closeLosses ++
      ⟨none, v.handed.report.ended, .holdEntered (v.closing.map fun x => x.1.number)⟩ ::
      order.flatMap (v.removedNotices fun c => (v.store.active.chan.get c).k) ++ ns

/-- From `v` to `b` the boundary operation opened the interval `iv`, the commit offering `ns`. -/
structure MeasuringBoundary (v b : State) (iv : Interval) (ns : List Notice) : Prop where
  free : v.store.commitPending = false → ns = []
  commit : v.store.commitPending = true → CommitTaken v b v.handed.report.ended true ns
  acc : b.acc = { v.acc with
    phase := .measuring, openingPending := false, restartPending := false, nextNumber := (v.acc.nextNumber + 1) % 2 ^ 32
    carriedConfig := false, carriedClock := false, carriedGain := .same 0, guardRemaining := b.acc.guardRemaining }
  tails : TailsBegun v (fun c => (b.monitor.get c).lmax = none) b.capture.regions
  told : v.fifo.length ≤ 128 → TakesEvents v.report 15 → ∃ order : List Chan, order.Perm Chan.all ∧
    b.report.events = v.report.events ++ v.closeLosses ++ ns ++ order.flatMap fun c =>
      if (b.monitor.get c).lmax = none then v.removedNotices (fun c => (v.store.atBoundary.active.chan.get c).k) c else []
  interval : b.interval = some iv
  clock : b.clock = { v.clock with entryInForce := some iv.entry }
  fields : iv = {
    number := v.acc.nextNumber, openTime := v.handed.report.reading
    entry := lookup v.store.atBoundary.active.schedule v.handed.report.reading
    nNom := nominalSamples (v.store.atBoundary.active.base * v.store.atBoundary.active.factor) v.handed.report.reading
    gap := false, configApplied := v.store.commitPending || v.acc.carriedConfig
    clockSet := v.handed.report.load || v.acc.carriedClock, strikes := 0, accs := iv.accs }
  accs : ∀ c, ∃ g, iv.accs.get c =
    if (v.store.atBoundary.active.chan.get c).enable then
      some (.opened
        (effectiveLimits v.store.atBoundary.active.schedule (v.store.atBoundary.active.chan.get c).limitOffset iv.entry)
        (min 4294967295 (v.acc.carriedGain.get c +
          if v.store.commitPending then (v.range.get c).clampCount (v.store.staged.range.get c) else 0)) g)
    else none
  monitor : ∀ c,
    let m := MonitorChan.atOpening (v.store.atBoundary.active.chan.get c) (iv.accs.get c) iv.nNom (v.monitor.get c)
    b.monitor.get c = if m.lmax = none then m.closed else m

section Branches

variable {v : State} (some_ : v.atBoundary = true) (busy : v.report.sending.isSome = true)
  (punctual : Punctual v .limitRemoved)
include some_ busy punctual

theorem boundary_held (hold : v.acc.holdPending = true) : ∃ ns, HeldBoundary v (v.boundaryStep Config.pick) ns := by
  have kept := readied_taken v
  have step := boundaryStep_readied some_ Config.pick
  rw [if_pos hold] at step
  obtain ⟨ns, taken⟩ := enterHeld_taken v.readied (v.closing.map fun x => x.1.number) (readied_punctual punctual)
  rw [← step] at taken
  have pending : v.readied.store.commitPending = v.store.commitPending := by rw [kept.store]
  have free : v.store.commitPending = false → ns = [] := fun none => taken.free (pending.trans none)
  have commit : v.store.commitPending = true → CommitTaken v (v.boundaryStep Config.pick) v.handed.report.ended false ns :=
    fun yes => by
      have commit := commitTaken_readied (taken.commit (pending.trans yes))
      rwa [kept.handed] at commit
  have carried : v.readied.acc = { v.acc with
      carriedClock := v.acc.carriedClock || (v.interval.isNone && v.handed.report.load) } := by
    rw [kept.acc, closing_isNone some_, hold, Bool.and_true]
  refine ⟨ns, free, commit, ?_, ?_, ?_, fun c => ?_, fun c => ?_, ?_, fun room takes => ?_⟩
  · rw [step, enterHeld_interval, readied_interval some_]
  · rw [step, enterHeld_clock, kept.clock]
  · have acc := taken.acc
    rw [carried, pending] at acc
    exact acc
  · have gain := taken.gain c
    rw [carried, kept.range, kept.store] at gain
    exact gain
  · rw [step, enterHeld_monitor, kept.monitor]
  · exact taken.tails.congr (fun c => (readied_episode c).symm) kept.capture.symm fun _ => Iff.rfl
  · obtain ⟨order, perm, told⟩ := taken.told
    have few : ns.length ≤ 2 := by
      cases pending : v.store.commitPending with
      | false => rw [free pending]; exact Nat.zero_le 2
      | true => exact commitTaken_length_le (commit pending)
    have closes := closes_length_le perm (removedNotices_length_le v.readied fun c => (v.readied.store.active.chan.get c).k)
    have events := boundary_events busy room told (by rw [List.length_append, List.length_cons]; omega) takes
    refine ⟨order, perm, events.trans ?_⟩
    rw [readied_removedNotices, kept.store, kept.handed]
    simp only [List.append_assoc, List.cons_append]
    rfl

theorem boundary_measuring (hold : v.acc.holdPending = false) :
    ∃ iv ns, MeasuringBoundary v (v.boundaryStep Config.pick) iv ns := by
  have kept := readied_taken v
  have step := boundaryStep_readied some_ Config.pick
  rw [if_neg (by rw [hold]; exact Bool.noConfusion)] at step
  obtain ⟨ns, taken⟩ := enterMeasuring_taken v.readied (readied_punctual punctual)
  rw [← step] at taken
  have pending : v.readied.store.commitPending = v.store.commitPending := by rw [kept.store]
  have free : v.store.commitPending = false → ns = [] := fun none => taken.free (pending.trans none)
  have commit : v.store.commitPending = true → CommitTaken v (v.boundaryStep Config.pick) v.handed.report.ended true ns :=
    fun yes => by
      have commit := commitTaken_readied (taken.commit (pending.trans yes))
      rwa [kept.handed] at commit
  have carried : v.readied.acc = v.acc := by rw [kept.acc, hold, Bool.and_false, Bool.false_and, Bool.or_false]
  obtain ⟨iv, opened, clock, fields, accs, monitors⟩ := taken.opened
  rw [kept.store, carried, kept.handed] at fields
  simp only [kept.store, carried, kept.range, readied_atOpening] at accs monitors
  refine ⟨iv, ns, free, commit, ?_, ?_, fun room takes => ?_, opened, ?_, fields, accs, monitors⟩
  · have acc := taken.acc
    rw [carried] at acc
    exact acc
  · exact taken.tails.congr (fun c => (readied_episode c).symm) kept.capture.symm fun _ => Iff.rfl
  · obtain ⟨order, perm, told⟩ := taken.told
    have few : ns.length ≤ 2 := by
      cases pending : v.store.commitPending with
      | false => rw [free pending]; exact Nat.zero_le 2
      | true => exact commitTaken_length_le (commit pending)
    rw [kept.store, readied_removedNotices] at told
    have closes := closes_length_le perm (f := fun c =>
      if ((v.boundaryStep Config.pick).monitor.get c).lmax = none then
        v.removedNotices (fun c => (v.store.atBoundary.active.chan.get c).k) c
      else []) fun c => by
        split
        · exact removedNotices_length_le ..
        · exact Nat.zero_le 2
    have events := boundary_events busy room told (by rw [List.length_append]; omega) takes
    refine ⟨order, perm, events.trans ?_⟩
    simp only [List.append_assoc]
    rfl
  · rw [clock, kept.clock]

end Branches

/-! ### The terms of the statement -/

/-- The close cause as the rules list the causes (R83). -/
theorem closeCause_eq (s : State) : s.closeCause =
    if s.handed.report.load = true then some .clockSet
    else if s.handed.report.dayChanged = true then some .midnight
    else if s.handed.report.secondChanged = true ∧
        s.handed.report.reading.second % (s.store.active.base * s.store.active.factor) = 0 then some .aligned
    else if s.handed.report.scheduleChange.isSome = true then some .schedule
    else if s.acc.restartPending = true then some .resumeStart
    else none := by
  have aligned : (s.atAligned = true) = (s.handed.report.secondChanged = true ∧
      s.handed.report.reading.second % (s.store.active.base * s.store.active.factor) = 0) := by
    unfold State.atAligned
    rw [Bool.and_eq_true, decide_eq_true_eq]
    rfl
  unfold State.closeCause
  simp only [aligned]

/-- A cause carries the boundary (R83). -/
theorem closeCause_isSome (s : State) : s.closeCause.isSome = true ↔
    s.handed.report.load = true ∨ s.handed.report.dayChanged = true ∨
      (s.handed.report.secondChanged = true ∧
        s.handed.report.reading.second % (s.store.active.base * s.store.active.factor) = 0) ∨
      s.handed.report.scheduleChange.isSome = true ∨ s.acc.restartPending = true := by
  rw [closeCause_eq]
  split_ifs <;> simp [*]

theorem closing_isSome (s : State) :
    s.closing.isSome = true ↔ s.interval.isSome = true ∧ s.closeCause.isSome = true := by
  unfold State.closing
  cases s.interval <;> cases s.closeCause <;> simp

theorem openingDue_iff (s : State) : s.openingDue = true ↔
    s.acc.openingPending = true ∨ (s.handed.report.load = true ∧ s.acc.phase = .untimed) := by
  unfold State.openingDue
  rw [Bool.or_eq_true, Bool.and_eq_true, decide_eq_true_eq]

theorem atBoundary_iff (s : State) : s.atBoundary = true ↔ s.closing.isSome = true ∨
    (s.interval = none ∧ (s.acc.openingPending = true ∨ (s.handed.report.load = true ∧ s.acc.phase = .untimed))) := by
  unfold State.atBoundary
  rw [Bool.or_eq_true, Bool.and_eq_true, openingDue_iff, Option.isNone_iff_eq_none]

end Sys2Proof.Machine
end

section
/-! PROOFS. The close block of an episode that the boundary operation closes, with its channel's capture step in either order
(R112, R134, R135). -/

namespace Sys2Proof.Machine

/-! ### What the boundary operation closes (R112) -/

/-- The boundary operation closes a channel's episode: HELD is entered, or the channel has no Lmax limit in the interval that
opens. -/
def State.removes (s : State) (c : Chan) : Prop :=
  s.acc.holdPending = true ∨ (s.store.atBoundary.active.chan.get c).enable = false ∨
    (effectiveLimits s.store.atBoundary.active.schedule (s.store.atBoundary.active.chan.get c).limitOffset
      (lookup s.store.atBoundary.active.schedule s.handed.report.reading)).lmax = none

/-- A channel without an Lmax limit in an interval that opens has no episode threshold (R102). -/
theorem atOpening_lmax {set : ChannelSettings} {acc : Option ChannelAcc} {n : Nat} {m : MonitorChan}
    (none : ∀ ac, acc = some ac → ac.limits.lmax = none) : (MonitorChan.atOpening set acc n m).lmax = Option.none := by
  cases acc with
  | none => rfl
  | some ac => exact Option.map_eq_none_iff.2 (none ac rfl)

section Opening
variable (w : State) (clamps : Quad Nat) (applied : Bool)

/-- The state of an opening before its closes (R85, R102). -/
def State.opening : State :=
  let iv := w.newInterval clamps applied (lookup w.active.schedule w.handed.report.reading)
  { w with
    interval := some iv
    clock := { w.clock with entryInForce := some (lookup w.active.schedule w.handed.report.reading) }
    acc := { w.acc with
      phase := .measuring, openingPending := false, restartPending := false, nextNumber := next32 w.acc.nextNumber
      carriedConfig := false, carriedClock := false, carriedGain := .same 0 }
    monitor := w.monitor.mapWith fun c m => MonitorChan.atOpening (w.active.chan.get c) (iv.accs.get c) iv.nNom m }

theorem openInterval_eq (pick : Nat → Nat) :
    w.openInterval pick clamps applied = (w.opening clamps applied).closeUnlimited pick := rfl

theorem opening_episode (c : Chan) : ((w.opening clamps applied).monitor.get c).episode = (w.monitor.get c).episode := by
  unfold State.opening
  dsimp only
  rw [Quad.get_mapWith]
  unfold MonitorChan.atOpening
  split <;> rfl

theorem opening_lmax {c : Chan} (none : (w.store.active.chan.get c).enable = false ∨
    (effectiveLimits w.store.active.schedule (w.store.active.chan.get c).limitOffset
      (lookup w.store.active.schedule w.handed.report.reading)).lmax = none) :
    ((w.opening clamps applied).monitor.get c).lmax = Option.none := by
  unfold State.opening
  dsimp only
  rw [Quad.get_mapWith]
  refine atOpening_lmax fun ac found => ?_
  have accs : (if (w.store.active.chan.get c).enable then
      some (ChannelAcc.opened (effectiveLimits w.store.active.schedule (w.store.active.chan.get c).limitOffset
        (lookup w.store.active.schedule w.handed.report.reading)) (addUpTo max32 (w.acc.carriedGain.get c) (clamps.get c))
        (w.range.get c).gain)
      else Option.none) = some ac := (Quad.get_mapWith _ w.store.active.chan c).symm.trans found
  split at accs
  next on =>
    cases accs
    exact none.resolve_left (by rw [on]; exact Bool.noConfusion)
  next => cases accs

theorem openInterval_monitor (pick : Nat → Nat) {c : Chan} (none : ((w.opening clamps applied).monitor.get c).lmax = none) :
    (w.openInterval pick clamps applied).monitor.get c = ((w.opening clamps applied).monitor.get c).closed := by
  rw [openInterval_eq]
  unfold State.closeUnlimited
  rw [eachFreely_monitor fun c u => closeEpisode_monitor]
  split
  · rfl
  next out =>
    refine (closed_of_idle ?_).symm
    by_contra opened
    exact out (List.mem_filter.2 ⟨(mem_openEpisodes ..).2 (Option.isSome_iff_ne_none.2 opened), by rw [none]; rfl⟩)

end Opening

/-- The state in which an interval opens, a pending commit applied (R84 step 3). -/
theorem enterMeasuring_eq (u : State) (pick : Nat → Nat) :
    ∃ (w : State) (clamps : Quad Nat) (applied : Bool), u.enterMeasuring pick = w.openInterval pick clamps applied ∧
      w.monitor = u.monitor ∧ w.capture = u.capture ∧ w.blockWork = u.blockWork ∧ w.handed = u.handed ∧
      w.store.active = u.store.atBoundary.active := by
  unfold State.enterMeasuring Store.atBoundary
  cases pending : u.store.commitPending with
  | false => exact ⟨u, _, _, if_neg Bool.noConfusion, rfl, rfl, rfl, rfl, rfl⟩
  | true =>
    exact ⟨u.applyCommit true u.handed.report.ended, _, _, if_pos rfl, applyCommit_monitor .., applyCommit_capture ..,
      applyCommit_blockWork .., applyCommit_handed .., congrArg Store.active (applyCommit_store ..)⟩

theorem closed_phase {m : MonitorChan} (opened : m.episode.isSome = true) : m.closed.phase = .idle := by
  unfold MonitorChan.closed
  obtain ⟨e, found⟩ := Option.isSome_iff_exists.1 opened
  rw [found]

section Removed
variable {v : State} {c : Chan} (some_ : v.atBoundary = true) (removes : v.removes c)
include some_ removes

theorem boundaryStep_removed (opened : (v.monitor.get c).episode.isSome = true) :
    ((v.boundaryStep Config.pick).monitor.get c).episode = none ∧
      ((v.boundaryStep Config.pick).monitor.get c).phase = .idle := by
  have kept := readied_taken v
  have here (m : MonitorChan) (same : m.episode = (v.monitor.get c).episode) :
      m.closed.episode = none ∧ m.closed.phase = .idle := ⟨m.closed_episode, closed_phase (by rw [same]; exact opened)⟩
  rw [boundaryStep_readied some_]
  split
  next hold =>
    rw [enterHeld_monitor]
    exact here _ (readied_episode c)
  next noHold =>
    obtain ⟨w, clamps, applied, whole, monitor, -, -, handed, active⟩ := enterMeasuring_eq v.readied Config.pick
    have none := opening_lmax w clamps applied (c := c) (by
      rw [active, handed, kept.store, kept.handed]
      exact removes.resolve_left noHold)
    rw [whole, openInterval_monitor w clamps applied Config.pick none]
    exact here _ ((opening_episode ..).trans (by rw [monitor]; exact readied_episode c))

/-- With no capture step due its recording began its tail, or is STORED. -/
theorem boundaryStep_tails (punctual : Punctual v .limitRemoved) :
    ∃ which : Chan → Prop, which c ∧ TailsBegun v which (v.boundaryStep Config.pick).capture.regions := by
  have kept := readied_taken v
  rw [boundaryStep_readied some_]
  split
  next hold =>
    obtain ⟨ns, taken⟩ := enterHeld_taken v.readied (v.closing.map fun x => x.1.number) (readied_punctual punctual)
    exact ⟨_, trivial, taken.tails.congr (fun c => (readied_episode c).symm) kept.capture.symm fun _ => Iff.rfl⟩
  next noHold =>
    obtain ⟨ns, taken⟩ := enterMeasuring_taken v.readied (readied_punctual punctual)
    obtain ⟨w, clamps, applied, whole, -, -, -, handed, active⟩ := enterMeasuring_eq v.readied Config.pick
    have none := opening_lmax w clamps applied (c := c) (by
      rw [active, handed, kept.store, kept.handed]
      exact removes.resolve_left noHold)
    refine ⟨_, ?_, taken.tails.congr (fun c => (readied_episode c).symm) kept.capture.symm fun _ => Iff.rfl⟩
    rw [whole, openInterval_monitor w clamps applied Config.pick none, MonitorChan.closed_lmax]
    exact none

end Removed

/-! ### A close that finds its channel's capture step due (R134) -/

/-- The close of another channel's episode leaves a channel's recording and its close block. -/
theorem closeEpisode_otherCapture (t : State) {c d : Chan} (apart : d ≠ c) (reason : CloseReason) (stamp : Stamp) :
    (t.closeEpisode d reason stamp).capture.recording c = t.capture.recording c ∧
      (t.closeEpisode d reason stamp).capture.closeBlock.get c = t.capture.closeBlock.get c ∧
      (t.closeEpisode d reason stamp).capture = { t.capture with
        regions := (t.closeEpisode d reason stamp).capture.regions
        closeBlock := (t.closeEpisode d reason stamp).capture.closeBlock } := by
  have close (u : State) (id : Option Nat) :
      (u.closeCapture d id reason stamp).capture.recording c = u.capture.recording c ∧
        (u.closeCapture d id reason stamp).capture.closeBlock.get c = u.capture.closeBlock.get c ∧
        (u.closeCapture d id reason stamp).capture = { u.capture with
          regions := (u.closeCapture d id reason stamp).capture.regions
          closeBlock := (u.closeCapture d id reason stamp).capture.closeBlock } := by
    unfold State.closeCapture
    cases found : u.capture.recording d with
    | none => exact ⟨rfl, rfl, rfl⟩
    | some x =>
      obtain ⟨i, dsc, tail⟩ := x
      obtain ⟨role, chan⟩ := Capture.recording_some found
      have was : Role.isRecordingOf c u.capture.regions[i] = false := by
        rw [role]
        exact decide_eq_false (by rw [chan]; exact apart)
      have becomes (tail : Option Nat) : Role.isRecordingOf c (.recording dsc tail) = false :=
        decide_eq_false (by rw [chan]; exact apart)
      have stores (d' : Descriptor) : (u.storeCapture i d' stamp).capture.recording c = u.capture.recording c ∧
          (u.storeCapture i d' stamp).capture.closeBlock.get c = u.capture.closeBlock.get c ∧
          (u.storeCapture i d' stamp).capture = { u.capture with
            regions := (u.storeCapture i d' stamp).capture.regions
            closeBlock := (u.storeCapture i d' stamp).capture.closeBlock } := by
        rw [(storeCapture_ends u i d' stamp).1]
        exact ⟨recording_set_other was rfl, rfl, rfl⟩
      cases tail with
      | some n => exact ⟨rfl, rfl, rfl⟩
      | none =>
        dsimp only
        split
        · exact ⟨rfl, rfl, rfl⟩
        · split
          · exact stores _
          · split
            · exact ⟨recording_set_other was (becomes _), Quad.get_set_other _ _ (Ne.symm apart), rfl⟩
            · split
              · exact stores _
              · exact ⟨recording_set_other was (becomes _), rfl, rfl⟩
  cases opened : (t.monitor.get d).episode with
  | none =>
    rw [closeEpisode_idle opened]
    exact ⟨rfl, rfl, rfl⟩
  | some e =>
    obtain ⟨u, whole, capture, -, -⟩ := closeEpisode_open (reason := reason) (stamp := stamp) opened
    rw [whole, ← capture]
    exact close u e.captureId

/-- A region's recording renewed is the channel's recording still. -/
theorem recording_renewed {k : Capture} {c : Chan} {i : Fin 16} {d d' : Descriptor} {tail : Option Nat}
    (found : k.recording c = some (i, d, tail)) (same : d'.chan = d.chan) (tail' : Option Nat) :
    ({ k with regions := k.regions.set i (.recording d' tail') } : Capture).recording c = some (i, d', tail') := by
  obtain ⟨role, chan⟩ := Capture.recording_some found
  have here : (k.regions.set i (.recording d' tail'))[i] = .recording d' tail' := Vector.getElem_set_self ..
  have look : ({ k with regions := k.regions.set i (.recording d' tail') } : Capture).find (Role.isRecordingOf c) =
      k.find (Role.isRecordingOf c) := by
    unfold Capture.find
    refine List.find?_congr fun j _ => ?_
    dsimp only
    by_cases at' : j = i
    · rw [at', here, role]
      exact congrArg (fun x => decide (x = c)) same
    · have stays : (k.regions.set i (.recording d' tail'))[j] = k.regions[j] :=
        Vector.getElem_set_ne (Nat.lt_of_lt_of_le i.isLt le_rfl) _ fun e => at' (Fin.ext e.symm)
      rw [stays]
  have index : k.find (Role.isRecordingOf c) = some i := by
    unfold Capture.recording at found
    split at found
    next j at' =>
      split at found
      · cases found
        exact at'
      · cases found
    next => cases found
  unfold Capture.recording
  rw [look, index]
  dsimp only
  rw [here]

/-- The recording of a channel is as a close that came before the channel's capture step leaves it (R134). -/
structure LateBegun (k : Capture) (c : Chan) (i : Fin 16) (d : Descriptor) (k' : Capture) : Prop where
  frame : k' = { k with regions := k'.regions, closeBlock := k'.closeBlock }
  recording : k'.recording c = some (i, d, some k.tailLength)
  mark : k'.closeBlock.get c = true

/-- Before or behind the late close of the channel's episode. -/
structure LateClosing (k : Capture) (c : Chan) (e : Episode) (i : Fin 16) (d : Descriptor) (u : State) : Prop where
  due : u.captureStepDue c = true
  frame : u.capture = { k with regions := u.capture.regions, closeBlock := u.capture.closeBlock }
  side : RecordedBy u c e i d ∨ (u.monitor.get c).episode = none ∧ LateBegun k c i d u.capture

namespace LateClosing

variable {k : Capture} {c : Chan} {e : Episode} {i : Fin 16} {d : Descriptor} {u w : State}

theorem congr (h : LateClosing k c e i d u) (work : w.blockWork = u.blockWork) (capture : w.capture = u.capture)
    (episode : (w.monitor.get c).episode = (u.monitor.get c).episode) : LateClosing k c e i d w := by
  obtain ⟨due, frame, side⟩ := h
  refine ⟨?_, by rw [capture]; exact frame, ?_⟩
  · unfold State.captureStepDue at due ⊢
    rwa [work]
  · unfold RecordedBy at side ⊢
    rwa [capture, episode]

theorem close (h : LateClosing k c e i d u) (x : Chan) (stamp : Stamp) :
    LateClosing k c e i d (u.closeEpisode x .limitRemoved stamp) := by
  obtain ⟨due, frame, side⟩ := h
  have due' : (u.closeEpisode x .limitRemoved stamp).captureStepDue c = true := by
    unfold State.captureStepDue at due ⊢
    rwa [closeEpisode_blockWork]
  by_cases same : x = c
  · subst same
    obtain recorded | ⟨idle, late⟩ := side
    · have capture := closeEpisode_late (reason := .limitRemoved) (stamp := stamp) rfl due recorded
      have tail : u.capture.tailLength = k.tailLength := by rw [frame]
      have framed : (u.closeEpisode x .limitRemoved stamp).capture = { k with
          regions := (u.closeEpisode x .limitRemoved stamp).capture.regions
          closeBlock := (u.closeEpisode x .limitRemoved stamp).capture.closeBlock } := by
        rw [capture]
        exact congrArg (fun k' : Capture => { k' with
          regions := u.capture.regions.set i (.recording d (some u.capture.tailLength))
          closeBlock := u.capture.closeBlock.set x true }) frame
      refine ⟨due', framed, .inr ⟨?_, framed, ?_, ?_⟩⟩
      · rw [closeEpisode_monitor, Quad.get_set_same]
        exact MonitorChan.closed_episode _
      · have renewed := recording_renewed (d' := d) recorded.2.1 rfl (some u.capture.tailLength)
        rw [capture, ← tail]
        exact renewed
      · rw [capture]
        exact Quad.get_set_same ..
    · rw [closeEpisode_idle idle]
      exact ⟨due, frame, .inr ⟨idle, late⟩⟩
  · obtain ⟨recording, mark, frame'⟩ := closeEpisode_otherCapture u same .limitRemoved stamp
    have monitor : ((u.closeEpisode x .limitRemoved stamp).monitor.get c) = u.monitor.get c := by
      rw [closeEpisode_monitor, Quad.get_set_other _ _ (Ne.symm same)]
    have framed : (u.closeEpisode x .limitRemoved stamp).capture = { k with
        regions := (u.closeEpisode x .limitRemoved stamp).capture.regions
        closeBlock := (u.closeEpisode x .limitRemoved stamp).capture.closeBlock } := by
      conv_lhs => rw [frame', frame]
    refine ⟨due', framed, ?_⟩
    rw [monitor]
    refine side.imp (fun ⟨opened, found, id⟩ => ⟨by rw [monitor]; exact opened, by rw [recording]; exact found, id⟩)
      fun ⟨idle, late⟩ => ⟨idle, framed, by rw [recording]; exact late.recording, by rw [mark]; exact late.mark⟩

theorem closes (h : LateClosing k c e i d u) (pick : Nat → Nat) (l : List Chan) (stamp : State → Stamp) :
    LateClosing k c e i d (u.eachFreely pick l fun x s => s.closeEpisode x .limitRemoved (stamp s)) :=
  eachFreely_keeps (LateClosing k c e i d) pick l _ (fun _ _ h => h.congr rfl rfl rfl) (fun x _ _ h => h.close x _) u h

theorem boundary (h : LateClosing k c e i d u) (some_ : u.atBoundary = true) :
    LateClosing k c e i d (u.boundaryStep Config.pick) := by
  have kept := readied_taken u
  have readied : LateClosing k c e i d u.readied := h.congr kept.work kept.capture (readied_episode c)
  rw [boundaryStep_readied some_]
  split
  · have closed : LateClosing k c e i d (u.readied.heldClosed Config.pick (u.closing.map fun x => x.1.number)) := by
      unfold State.heldClosed
      refine LateClosing.closes ?_ _ _ _
      exact readied.congr (offer_blockWork ..) (offer_capture ..) (by rw [offer_monitor])
    rw [enterHeld_eq]
    split
    · exact closed.congr (commitAtOnce_blockWork ..) (commitAtOnce_capture ..) (by rw [commitAtOnce_monitor])
    · exact closed
  · obtain ⟨w, clamps, applied, whole, monitor, capture, work, -, -⟩ := enterMeasuring_eq u.readied Config.pick
    rw [whole, openInterval_eq]
    have applied' : LateClosing k c e i d w := readied.congr work capture (by rw [monitor])
    refine LateClosing.closes ?_ _ _ _
    exact applied'.congr rfl rfl (opening_episode ..)

end LateClosing

end Sys2Proof.Machine
end

section
/-! PROOFS. A block end with a boundary and one channel's capture step due, in any order; the boundary operation as the
statement has it (R83 to R85, R112, R134, R135). -/

namespace Sys2Proof.Machine

/-! ### The capture step before and behind the close (R134, R135) -/

section Recording
variable {u : State} {c : Chan} {i : Fin 16} {d : Descriptor} {tail : Option Nat}

/-- The role of a recording's region behind the capture step. -/
def Capture.roleAfter (k : Capture) (c : Chan) (d : Descriptor) (tail : Option Nat) : Role :=
  match k.recordingEnd c d tail with
  | .full => .stored { blockRecorded k d with truncated := d.truncated || k.truncatedAtFull c tail }
  | .tailEnds => .stored (blockRecorded k d)
  | .goesOn => .recording (blockRecorded k d) (k.tailAfter c tail)

theorem captureStep_regions (found : u.capture.recording c = some (i, d, tail)) :
    (u.captureStep c).capture.regions = u.capture.regions.set i (u.capture.roleAfter c d tail) ∧
      (u.captureStep c).capture.tailLength = u.capture.tailLength := by
  have length : (u.blockOffered c i d).capture.tailLength = u.capture.tailLength := by
    unfold State.blockOffered Capture.offered
    dsimp only
    split
    · rw [Capture.push, Capture.arbitrate_eq]
    · rfl
  have regions : (u.blockOffered c i d).capture.regions = u.capture.regions := offered_regions ..
  have stores (d' : Descriptor) (stamp : Stamp) :
      ((u.blockOffered c i d).storeCapture i d' stamp).capture.regions = u.capture.regions.set i (.stored d') ∧
        ((u.blockOffered c i d).storeCapture i d' stamp).capture.tailLength = u.capture.tailLength := by
    rw [(storeCapture_ends ..).1]
    exact ⟨congrArg (·.set i (.stored d')) regions, length⟩
  rw [captureStep_of_recording found]
  unfold Capture.roleAfter
  cases u.capture.recordingEnd c d tail with
  | full => exact stores ..
  | tailEnds => exact stores ..
  | goesOn =>
    exact ⟨congrArg (·.set i (.recording (blockRecorded u.capture d) (u.capture.tailAfter c tail))) regions, length⟩

theorem captureStep_role (found : u.capture.recording c = some (i, d, tail)) :
    (u.captureStep c).capture.regions[i] = u.capture.roleAfter c d tail := by
  rw [(captureStep_regions found).1]
  exact Vector.getElem_set_self ..

end Recording

theorem blockRecorded_same (k : Capture) (d : Descriptor) :
    (blockRecorded k d).chan = d.chan ∧ (blockRecorded k d).id = d.id := by
  unfold blockRecorded
  split
  · split <;> exact ⟨rfl, rfl⟩
  · exact ⟨rfl, rfl⟩

theorem blockRecorded_accepted {k : Capture} (accepts : Accepts k) (d : Descriptor) :
    blockRecorded k d = { d with length := d.length + 1 } := by
  unfold blockRecorded
  rw [if_pos accepts.1, if_pos accepts.2]

/-- The region of a recording that reached its full length with the block: STORED, cut short unless its tail has run out. -/
def FullAt (k : Capture) (d : Descriptor) (r : Role) : Prop :=
  ∃ cut, r = .stored { d with length := d.length + 1, truncated := cut } ∧
    (0 < k.tailLength ∨ d.truncated = true → cut = true)

/-- The region of a recording behind its close block and its close (R134, R135). -/
def CloseBlockTaken (k : Capture) (d : Descriptor) (r : Role) : Prop :=
  (¬Accepts k ∨ d.length + 1 < 10000 →
    r = if k.tailLength = 0 then .stored (blockRecorded k d) else .recording (blockRecorded k d) (some k.tailLength)) ∧
  (Accepts k → 10000 ≤ d.length + 1 → FullAt k d r)

/-- The capture step was taken, and the close is still to come. -/
structure BlockTaken (k : Capture) (c : Chan) (i : Fin 16) (d : Descriptor) (k' : Capture) : Prop where
  tail : k'.tailLength = k.tailLength
  short : ¬Accepts k ∨ d.length + 1 < 10000 → k'.recording c = some (i, blockRecorded k d, none)
  full : Accepts k → 10000 ≤ d.length + 1 → FullAt k d k'.regions[i]

theorem captureStep_early {u : State} {c : Chan} {i : Fin 16} {d : Descriptor}
    (found : u.capture.recording c = some (i, d, none)) : BlockTaken u.capture c i d (u.captureStep c).capture := by
  obtain ⟨regions, tail⟩ := captureStep_regions found
  have role := captureStep_role found
  have none_after : u.capture.tailAfter c none = none := by
    rw [tailAfter_eq]
    split <;> rfl
  have goes : u.capture.tailAfter c none ≠ some 0 := by
    rw [none_after]
    exact fun h => by cases h
  refine ⟨tail, fun short => ?_, fun accepts length => ?_⟩
  · have ends := recordingEnd_short (c := c) (tail := none) short
    rw [if_neg goes] at ends
    have after : u.capture.roleAfter c d none = .recording (blockRecorded u.capture d) none := by
      unfold Capture.roleAfter
      rw [ends, none_after]
    have renewed := recording_renewed found (blockRecorded_same u.capture d).1 none
    rw [← after] at renewed
    unfold Capture.recording Capture.find at renewed ⊢
    rw [regions]
    exact renewed
  · refine ⟨true, ?_, fun _ => rfl⟩
    rw [role]
    unfold Capture.roleAfter Capture.truncatedAtFull
    rw [recordingEnd_full accepts length, blockRecorded_accepted accepts, decide_eq_true goes, Bool.or_true]

theorem captureStep_late {u : State} {k : Capture} {c : Chan} {i : Fin 16} {d : Descriptor}
    (late : LateBegun k c i d u.capture) : CloseBlockTaken k d (u.captureStep c).capture.regions[i] := by
  obtain ⟨frame, found, mark⟩ := late
  have accepts_iff : Accepts u.capture ↔ Accepts k := by
    unfold Accepts
    rw [frame]
  have recorded : blockRecorded u.capture d = blockRecorded k d := by
    unfold blockRecorded
    rw [frame]
  have after : u.capture.tailAfter c (some k.tailLength) = some k.tailLength := by
    rw [tailAfter_eq, if_pos mark]
  rw [captureStep_role found]
  unfold Capture.roleAfter Capture.truncatedAtFull
  rw [after, recorded]
  refine ⟨fun short => ?_, fun accepts length => ?_⟩
  · rw [recordingEnd_short (by rw [accepts_iff]; exact short), after]
    simp only [Option.some.injEq]
    by_cases tail : k.tailLength = 0
    · rw [if_pos tail, if_pos tail]
    · rw [if_neg tail, if_neg tail]
  · rw [recordingEnd_full (accepts_iff.2 accepts) length, blockRecorded_accepted accepts]
    refine ⟨_, rfl, fun cut => ?_⟩
    obtain tail | truncated := cut
    · rw [decide_eq_true (by simp only [ne_eq, Option.some.injEq]; omega), Bool.or_true]
    · rw [truncated, Bool.true_or]

/-- The close behind the capture step (R135). -/
theorem closeBlock_of_tails {k : Capture} {v : State} {c : Chan} {e : Episode} {i : Fin 16} {d : Descriptor}
    {which : Chan → Prop} {rs : Vector Role 16} (taken : BlockTaken k c i d v.capture)
    (opened : (v.monitor.get c).episode = some e)
    (id : e.captureId = some d.id) (tails : TailsBegun v which rs) (mem : which c) : CloseBlockTaken k d rs[i] := by
  obtain ⟨tail, short, full⟩ := taken
  obtain ⟨ended, others⟩ := tails i
  refine ⟨fun h => ?_, fun accepts length => ?_⟩
  · rw [← tail]
    exact ended c e _ mem ⟨opened, short h, id.trans (congrArg some (blockRecorded_same k d).2.symm)⟩
  · obtain ⟨cut, stored, marked⟩ := full accepts length
    refine ⟨cut, (others fun x e' d' _ recorded => ?_).trans stored, marked⟩
    cases stored.symm.trans (Capture.recording_some recorded.2.1).1

/-! ### The two steps among those due -/

/-- What the boundary operation goes by, besides the monitor and the capture controller. -/
def State.boundaryView (s : State) : Option Interval × Handed × Accumulator × Store := (s.interval, s.handed, s.acc, s.store)

theorem atBoundary_congr {s u : State} (same : u.boundaryView = s.boundaryView) : u.atBoundary = s.atBoundary := by
  unfold State.boundaryView at same
  simp only [Prod.mk.injEq] at same
  obtain ⟨interval, handed, acc, store⟩ := same
  unfold State.atBoundary State.closing State.closeCause State.atAligned State.openingDue State.active
  rw [interval, handed, acc, store]

theorem removes_congr {s u : State} {c : Chan} (same : u.boundaryView = s.boundaryView) (h : s.removes c) : u.removes c := by
  unfold State.boundaryView at same
  simp only [Prod.mk.injEq] at same
  obtain ⟨-, handed, acc, store⟩ := same
  unfold State.removes
  rw [handed, acc, store]
  exact h

/-- A boundary that closes a channel's episode, and the channel's capture step, among the steps still due. -/
structure RemovalDue (s : State) (c : Chan) (i : Fin 16) (d : Descriptor) (left : List Task) (u : State) : Prop where
  nodup : left.Nodup
  inside : left ⊆ [.capture c, .boundary, .alert, .live]
  waits : .boundary ∈ left → u.boundaryView = s.boundaryView ∧ u.monitor.get c = s.monitor.get c
  closed : .boundary ∉ left → (u.monitor.get c).episode = none ∧ (u.monitor.get c).phase = .idle
  fresh : .capture c ∈ left → .boundary ∈ left → u.capture = s.capture
  late : .capture c ∈ left → .boundary ∉ left → LateBegun s.capture c i d u.capture
  taken : .capture c ∉ left → .boundary ∈ left → BlockTaken s.capture c i d u.capture
  done : .capture c ∉ left → .boundary ∉ left → CloseBlockTaken s.capture d u.capture.regions[i]

section Due
variable {s : State} {c : Chan} {e : Episode} {i : Fin 16} {d : Descriptor} (some_ : s.atBoundary = true)
  (removes : s.removes c) (recorded : RecordedBy s c e i d)

theorem removalDue_start (n : Nat) :
    RemovalDue s c i d [.capture c, .boundary, .alert, .live] { s with choice := n } where
  nodup := by simp
  inside := List.Subset.refl _
  waits _ := ⟨rfl, rfl⟩
  closed out := absurd (by simp) out
  fresh _ _ := rfl
  late _ out := absurd (by simp) out
  taken out _ := absurd (by simp) out
  done out _ := absurd (by simp) out

include recorded

theorem removalDue_capture {left : List Task} {u : State} (h : RemovalDue s c i d left u) (mem : .capture c ∈ left) :
    RemovalDue s c i d (left.erase (.capture c))
      (State.captureStep { u with blockWork := some (left.erase (.capture c)) } c) := by
  obtain ⟨-, found, -⟩ := recorded
  obtain ⟨w, w_eq⟩ : ∃ w : State, w = { u with blockWork := some (left.erase (.capture c)) } := ⟨_, rfl⟩
  have gone : .capture c ∉ left.erase (.capture c) := h.nodup.not_mem_erase
  have other : .boundary ∈ left.erase (.capture c) ↔ .boundary ∈ left := List.mem_erase_of_ne fun e => nomatch e
  have monitor : (w.captureStep c).monitor = u.monitor := by rw [captureStep_monitor, w_eq]
  have view : (w.captureStep c).boundaryView = u.boundaryView := by
    unfold State.boundaryView
    rw [captureStep_interval, captureStep_handed, captureStep_acc, captureStep_store, w_eq]
  rw [← w_eq]
  refine ⟨h.nodup.erase _, fun t ht => h.inside (List.mem_of_mem_erase ht), fun m => ?_, fun m => ?_,
    fun m _ => absurd m gone, fun m _ => absurd m gone, fun _ m => ?_, fun _ m => ?_⟩
  · rw [view, monitor]
    exact h.waits (other.1 m)
  · rw [monitor]
    exact h.closed fun b => m (other.2 b)
  · have capture : w.capture = s.capture := by rw [w_eq]; exact h.fresh mem (other.1 m)
    have early := captureStep_early (u := w) (i := i) (d := d) (by rw [capture]; exact found)
    rw [capture] at early
    exact early
  · exact captureStep_late (u := w) (by rw [w_eq]; exact h.late mem fun b => m (other.2 b))

omit recorded in
/-- Steps that wait for the boundary leave what it made. -/
theorem removalDue_after {left : List Task} {u w : State} {t : Task} (h : RemovalDue s c i d left u) (past : .boundary ∉ left)
    (apart : .capture c ≠ t) (monitor : w.monitor = u.monitor) (capture : w.capture = u.capture) :
    RemovalDue s c i d (left.erase t) w := by
  have other : .capture c ∈ left.erase t ↔ .capture c ∈ left := List.mem_erase_of_ne apart
  have past' : .boundary ∉ left.erase t := fun m => past (List.mem_of_mem_erase m)
  refine ⟨h.nodup.erase _, fun v hv => h.inside (List.mem_of_mem_erase hv), fun m => absurd m past', fun _ => ?_,
    fun _ m => absurd m past', fun m _ => ?_, fun _ m => absurd m past', fun m _ => ?_⟩
  · rw [monitor]
    exact h.closed past
  · rw [capture]
    exact h.late (other.1 m) past
  · rw [capture]
    exact h.done (fun due => m (other.2 due)) past

include some_ removes

theorem removalDue_boundary {left : List Task} {u : State} (h : RemovalDue s c i d left u) (mem : .boundary ∈ left) :
    RemovalDue s c i d (left.erase .boundary)
      (State.boundaryStep Config.pick { u with blockWork := some (left.erase .boundary) }) := by
  obtain ⟨opened, found, id⟩ := recorded
  obtain ⟨w, w_eq⟩ : ∃ w : State, w = { u with blockWork := some (left.erase .boundary) } := ⟨_, rfl⟩
  obtain ⟨view, monitor⟩ := h.waits mem
  have gone : .boundary ∉ left.erase .boundary := h.nodup.not_mem_erase
  have other : .capture c ∈ left.erase .boundary ↔ .capture c ∈ left := List.mem_erase_of_ne fun e => nomatch e
  have some_w : w.atBoundary = true := by rw [atBoundary_congr (s := s) (by rw [w_eq]; exact view)]; exact some_
  have removes_w : w.removes c := removes_congr (s := s) (by rw [w_eq]; exact view) removes
  have opened_w : (w.monitor.get c).episode = some e := by rw [w_eq]; exact (congrArg _ monitor).trans opened
  have removed := boundaryStep_removed some_w removes_w (by rw [opened_w]; rfl)
  rw [← w_eq]
  refine ⟨h.nodup.erase _, fun t ht => h.inside (List.mem_of_mem_erase ht), fun m => absurd m gone, fun _ => removed,
    fun _ m => absurd m gone, fun due _ => ?_, fun _ m => absurd m gone, fun past _ => ?_⟩
  · have due := other.1 due
    have capture : w.capture = s.capture := by rw [w_eq]; exact h.fresh due mem
    have before : LateClosing s.capture c e i d w := by
      refine ⟨?_, by rw [capture], .inl ⟨opened_w, by rw [capture]; exact found, id⟩⟩
      rw [w_eq]
      exact List.contains_iff_mem.2 (other.2 due)
    obtain ⟨-, -, side⟩ := before.boundary some_w
    obtain unclosed | ⟨-, late⟩ := side
    · exact nomatch unclosed.1.symm.trans removed.1
    · exact late
  · have past : .capture c ∉ left := fun m => past (other.2 m)
    have punctual : Punctual w .limitRemoved := fun x ⟨_, due⟩ => by
      rw [w_eq] at due
      have mem' : .capture x ∈ left := List.mem_of_mem_erase (List.contains_iff_mem.1 due)
      have same : x = c := by simpa using h.inside mem'
      exact past (same ▸ mem')
    obtain ⟨which, closes, tails⟩ := boundaryStep_tails some_w removes_w punctual
    exact closeBlock_of_tails (v := w) (by rw [w_eq]; exact h.taken past mem) opened_w id tails closes

theorem removalDue_taskKept : TaskKept (RemovalDue s c i d) := by
  intro u left t _ mem first h
  have listed : t = .capture c ∨ t = .boundary ∨ t = .alert ∨ t = .live := by simpa using h.inside mem
  obtain rfl | rfl | rfl | rfl := listed
  · exact removalDue_capture recorded h mem
  · exact removalDue_boundary some_ removes recorded h mem
  · have past : .boundary ∉ left := fun b => Bool.noConfusion ((first _ b).symm.trans rfl)
    exact removalDue_after h past (fun e => nomatch e) rfl rfl
  · have past : .boundary ∉ left := fun b => Bool.noConfusion ((first _ b).symm.trans rfl)
    exact removalDue_after h past (fun e => nomatch e) (liveStep_monitor ..) (liveStep_capture ..)

/-- The close block of an episode that the boundary operation closes, whichever of the two steps comes first. -/
theorem finishBlock_removed (due : s.blockWork = some [.capture c, .boundary, .alert, .live]) :
    ((s.finishBlock Config.pick).monitor.get c).episode = none ∧ ((s.finishBlock Config.pick).monitor.get c).phase = .idle ∧
      CloseBlockTaken s.capture d (s.finishBlock Config.pick).capture.regions[i] := by
  obtain ⟨u, -, kept, same⟩ := finishBlock_due (removalDue_taskKept some_ removes recorded) s _ due
    (removalDue_start _)
  obtain ⟨idle, phase⟩ := kept.closed (fun m => nomatch m)
  rw [same]
  exact ⟨idle, phase, kept.done (fun m => nomatch m) fun m => nomatch m⟩

end Due

/-- Settles O35: what closes and opens decides the boundary operation, and a close with its channel's capture step due is
followed through both orders of the two steps. -/
theorem boundaryClosesAndOpens : Obligations.BoundaryClosesAndOpens := by
  refine ⟨fun s due busy => ?_, fun s c e i d due recorded _ => ?_⟩
  · intro r a commit a' cause closing opening records total excess lost clamps removed
    obtain ⟨v, v_eq⟩ : ∃ v : State, v = s.atBoundaryStep := ⟨_, rfl⟩
    have busy_v : v.report.sending.isSome = true := by rw [v_eq]; exact busy
    have punctual : Punctual v .limitRemoved := by rw [v_eq]; exact punctual_atBoundaryStep s
    obtain ⟨alert, image, counter, slot, overwritten, marks, whole⟩ :=
      finishBlock_boundary due (boundaryStep_busy (v_eq ▸ busy_v))
    have closing_eq : v.closing = closing := by
      have same : v.closeCause = cause := by rw [closeCause_eq, v_eq]; rfl
      unfold State.closing
      rw [same, v_eq]
      rfl
    have boundary_iff : v.atBoundary = true ↔ closing.isSome = true ∨ opening := by
      rw [atBoundary_iff, closing_eq, v_eq]
      rfl
    have records_eq : v.closingRecords = records := by
      unfold State.closingRecords
      rw [closing_eq, v_eq]
      rfl
    have active_eq : v.store.atBoundary.active = a' := by
      rw [atBoundary_eq, v_eq]
      rfl
    have clamps_eq (c : Chan) : (if commit then (s.range.get c).clampCount (s.store.staged.range.get c) else 0) = clamps c := by
      change _ = if s.store.commitPending then (s.range.get c).clampCount
        ((if s.store.commitPending then s.store.staged else s.store.active).range.get c) else 0
      change (if s.store.commitPending then _ else 0) = _
      cases s.store.commitPending <;> rfl
    have losses_eq : v.closeLosses = lost := by
      unfold State.closeLosses
      rw [records_eq, v_eq]
      rfl
    have capture := boundaryStep_capture punctual
    rw [← v_eq] at whole
    dsimp only at whole
    refine ⟨_, exec_blockEnd whole, ?_, ?_, ?_, ?_, ?_, fun noClose noOpen => ?_, fun some_ => ?_⟩
    · exact (boundaryStep_port ..).trans (by rw [v_eq]; rfl)
    · exact (boundaryStep_link ..).trans (by rw [v_eq]; rfl)
    · exact (boundaryStep_memory ..).trans (by rw [v_eq]; rfl)
    · exact (boundaryStep_nextEpisode ..).trans (by rw [v_eq]; rfl)
    · dsimp only
      rw [capture, v_eq]
      rfl
    · have quiet : v.atBoundary = false := by
        rw [← Bool.not_eq_true, boundary_iff, not_or]
        exact ⟨by rw [noClose]; exact Bool.noConfusion, noOpen⟩
      rw [boundaryStep_quiet quiet, v_eq]
      change _ ∧ _ ∧ _ ∧ _ ∧ _ ∧ _ ∧ _ ∧ _ ∧ _ ∧ _ ∧ _ ∧ _
      split
      next load =>
        refine ⟨rfl, rfl, rfl, rfl, rfl, rfl, rfl, rfl, rfl, rfl, rfl, ?_⟩
        rw [show (s.interval.isNone && r.load) = true from load, Bool.or_true]
        rfl
      next noLoad =>
        refine ⟨rfl, rfl, rfl, rfl, rfl, rfl, rfl, rfl, rfl, rfl, rfl, ?_⟩
        rw [show (s.interval.isNone && r.load) = false from Bool.eq_false_iff.2 noLoad, Bool.or_false]
        rfl
    · have some_ := boundary_iff.2 some_
      refine ⟨fun room => ?_, ?_, fun none => ?_, fun hold => ?_, fun noHold => ?_⟩
      · have fifo := boundaryStep_fifo some_ busy_v (by rw [v_eq]; exact room)
        rw [records_eq] at fifo
        have same : v.fifo = s.fifo ∧ v.recordsLost = s.recordsLost := by rw [v_eq]; exact ⟨rfl, rfl⟩
        rw [same.1, same.2] at fifo
        exact fifo
      · dsimp only
        rw [boundaryStep_atBoundary_store some_, atBoundary_eq, v_eq]
        rfl
      · have free : v.store.commitPending = false := by rw [v_eq]; exact none
        obtain ⟨check, range, unit, -⟩ := boundaryStep_sameChannels free Config.pick
        have guard := (boundaryStep_view v Config.pick).2 free
        dsimp only
        rw [check, range, unit, guard, v_eq]
        exact ⟨rfl, rfl, rfl, rfl⟩
      · obtain ⟨ns, free, taken, interval, clock, acc, gain, monitor, tails, told⟩ :=
          boundary_held some_ busy_v punctual (by rw [v_eq]; exact hold)
        generalize v.boundaryStep Config.pick = b at *
        rw [closing_eq] at clock
        simp only [closing_eq] at monitor
        rw [losses_eq, closing_eq] at told
        subst v_eq
        refine ⟨ns, free, fun yes => commitTaken_congr (taken yes) rfl rfl rfl rfl rfl rfl rfl rfl rfl, interval, clock, ?_,
          fun c => ?_, monitor, tails, told⟩
        · dsimp only
          conv_lhs => rw [acc]
          rfl
        · rw [← clamps_eq]
          exact (gain c).trans (ite_congr rfl
            (fun yes => congrArg (fun n => min 4294967295 (s.acc.carriedGain.get c + n)) (if_pos yes).symm) fun _ => rfl)
      · obtain ⟨iv, ns, free, taken, acc, tails, told, interval, clock, fields, accs, monitors⟩ :=
          boundary_measuring some_ busy_v punctual (by rw [v_eq]; exact noHold)
        generalize v.boundaryStep Config.pick = b at *
        rw [active_eq, losses_eq] at told
        rw [active_eq] at fields
        simp only [active_eq] at accs monitors
        subst v_eq
        refine ⟨ns, free, fun yes => commitTaken_congr (taken yes) rfl rfl rfl rfl rfl rfl rfl rfl rfl, ?_, tails, told,
          iv, interval, congrArg Interval.number fields, congrArg Interval.openTime fields, congrArg Interval.entry fields, clock,
          congrArg Interval.nNom fields, congrArg Interval.gap fields, congrArg Interval.strikes fields,
          congrArg Interval.configApplied fields, congrArg Interval.clockSet fields, fun c => ?_⟩
        · dsimp only
          conv_lhs => rw [acc]
          rfl
        · intro set lim m
          obtain ⟨g, ac⟩ := accs c
          have here := monitors c
          refine ⟨fun off => ?_, fun on => ?_⟩
          · have ac : iv.accs.get c = none := by rw [ac]; exact if_neg (by rw [off]; exact Bool.noConfusion)
            rw [ac] at here
            exact ⟨ac, here⟩
          · have ac : iv.accs.get c = some (.opened lim (min 4294967295 (s.acc.carriedGain.get c + clamps c)) g) := by
              rw [ac, ← clamps_eq]
              exact if_pos on
            rw [ac] at here
            refine ⟨⟨g, ac⟩, ?_⟩
            intro opened
            have none_iff : opened.lmax = none ↔ lim.lmax = none := Option.map_eq_none_iff
            simp only [← none_iff]
            exact here
  · intro k r a a' set closes opens happens removed
    have active_eq : s.store.atBoundary.active = a' := by
      rw [atBoundary_eq]
    have some_ : s.atBoundary = true := by
      rw [atBoundary_iff]
      exact happens.imp_left fun ⟨opened, cause⟩ => (closing_isSome s).2 ⟨opened, (closeCause_isSome s).2 cause⟩
    have removes : s.removes c := by
      unfold State.removes
      rw [active_eq]
      exact removed
    obtain ⟨idle, phase, short, full⟩ := finishBlock_removed some_ removes recorded due
    exact ⟨_, exec_blockEnd rfl, idle, phase, short, full⟩

end Sys2Proof.Machine
end
